-- ==== Sys2Proof/Word.lean ====
section
/-! DEFINITION. The fixed-width values of the pygif LZW core (spec 00_scope.md R12, 10_state.md) and the closed
sets of names the spec gives: operations, phases, decoder states, error causes. -/

namespace Sys2Proof

/-- A byte: a palette index (R13), a payload byte, a command. -/
abbrev Byte := BitVec 8

/-- A code, zero-extended to 12 bits (R101). -/
abbrev Code := BitVec 12

/-- A 32-bit host register value (R33 to R37). -/
abbrev Word := BitVec 32

/-- The two operations a CMD write can start (R31): `OP = 1` and `OP = 2`. -/
inductive Op
  | decode
  | encode
  deriving DecidableEq, Repr

/-- PHASE, the transaction sequencer's state (R41). -/
inductive Phase
  | idle
  | check
  | deframe
  | lzwdec
  | encode
  | flush
  | finish
  deriving DecidableEq, Repr

/-- DSTATE, the decoder's control state (R46). -/
inductive DState
  | init
  | reading
  | cleared
  | done
  deriving DecidableEq, Repr

/-- The causes a transaction can abort with, one per row of R331's table. -/
inductive Cause
  | mcsRange
  | frameOverrun
  | frameNoTerminator
  | prematureEnd
  | badCode
  | deferNoPrev
  | dimNonpositive
  | mcsRangeEnc
  | indexRange
  | decodeCount
  | encodeLength
  deriving DecidableEq, Repr

end Sys2Proof
end

