-- ==== Sys2Proof/Config.lean ====
section
/-! DEFINITION. The fixed parameters of R10, the open parameters of R11, and the free values: what the spec
leaves open after an event the machine goes on from (93_implementation_defined.md, treatment `any value`). -/

namespace Sys2Proof

/-- MAX_W (R10): the largest code width. -/
def Config.maxW : Nat := 12

/-- DICT_CAP (R10): the largest dictionary size. -/
def Config.dictCap : Nat := 4096

/-- SUB_MAX (R10): the largest sub-block payload. -/
def Config.subMax : Nat := 255

/-- MCS_MIN (R10). -/
def Config.mcsMin : Nat := 2

/-- MCS_MAX (R10). -/
def Config.mcsMax : Nat := 8

/-- The pass table of R10 and R281, in the order the passes arrive: (stride, offset). -/
def Config.passes : List (Nat × Nat) := [(8, 0), (8, 4), (4, 2), (2, 1)]

/-- The parameters no source fixes (R11, D26), each a natural of any size (R12); State carries them and no step
changes them (log 3). -/
structure Params where
  /-- MAX_PIXELS: the largest `width * height` of one transaction. -/
  maxPixels : Nat
  /-- IN_CAP: the capacity of buffer IN in bytes. -/
  inCap     : Nat
  /-- OUT_CAP: the capacity of buffer OUT in bytes. -/
  outCap    : Nat
  deriving DecidableEq, Repr

/-- FREE VALUE (log 1). `freeNat seed index` is a natural the spec does not fix: the contents of an unspecified
buffer at an address, or a register left unspecified. It has no value in Lean: what is proved holds for all. -/
opaque Config.freeNat (seed index : Nat) : Nat

/-- FREE VALUE (log 2). What ROWMAP answers for latched height `hgt` and a physical row at or beyond it, where R283's
loop ends without returning a row; a height that is not positive has no rows. -/
opaque Config.rowmapOpen (hgt : Word) (row : Nat) : Nat

/-- FREE VALUE (log 2). What an interlaced ADDR answers when the latched width is not positive, where R284's `div` and
`mod` by WID have no value (R12). -/
opaque Config.addrOpen (wid hgt : Word) (p : Nat) : Nat

/-- FREE VALUE (log 19). What a `w`-bit register holds when a rule gives it a natural it cannot hold. -/
opaque Config.narrowOpen (w v : Nat) : Nat

/-- FREE VALUE (log 15). The diagnostic records the block writes to DIAG in one of its steps, each named by a natural:
R38 leaves their content, number and timing unspecified. -/
opaque Config.diagBurst (turn : Nat) : List Nat

end Sys2Proof
end

