-- ==== Sys2Proof/Machine/State.lean ====
section
/-! DEFINITION. The block's state (10_state.md, 20_memory.md R70), the reasons a step can stop, the host's
pending accesses, and the state after reset (R55, R370). Fields marked MODEL are not the spec's (log 11). -/

namespace Sys2Proof.Machine

/-- An address space of `w`-bit elements (R70): the elements written so far, addresses strictly rising, and the
seed that names its unspecified rest (an address nothing has written reads as a free value, log 1). With
`w = 8` the cells are Host.Cell. -/
structure Memory (w : Nat) where
  cells : List (Nat × BitVec w)
  seed  : Nat
  deriving DecidableEq, Repr

/-- The host registers (R31 to R37). CMD is write-only and stores nothing. `…Written` says that the host has
written the register since reset (R57). -/
structure HostRegs where
  cfg           : Byte
  cfgWritten    : Bool
  width         : Word
  widthWritten  : Bool
  height        : Word
  heightWritten : Bool
  inLen         : Word
  inLenWritten  : Bool
  /-- STATUS (R35): its fields are read through Machine/Flags.lean. -/
  status        : BitVec 16
  outLen        : Word
  inConsumed    : Word
  deriving DecidableEq, Repr

/-- The parameters latched at START (R42). `op` (MODEL) is which of R306 and R314 runs. -/
structure Latched where
  op        : Op
  m         : BitVec 4
  clear     : BitVec 9
  endCode   : BitVec 9
  firstFree : BitVec 9
  intl      : Bool
  nr        : Bool
  wid       : Word
  hgt       : Word
  ilen      : Word
  /-- `N`, an unbounded natural. -/
  n         : Nat
  deriving DecidableEq, Repr

/-- The decoder's registers (R44, R46, R47). OCOUNT is an unbounded natural. -/
structure DecRegs where
  d         : BitVec 13
  dstate    : DState
  prev      : Code
  prevValid : Bool
  ocount    : Nat
  deriving DecidableEq, Repr

/-- The unpacker's cursor (R48). `fpos` (MODEL) is the local `i` of DEFRAME's loop (R150). -/
structure UnpRegs where
  fpos   : Word
  icons  : Word
  plen   : Word
  bitpos : BitVec 35
  deriving DecidableEq, Repr

/-- The packer's cursor (R49). -/
structure PackRegs where
  acc   : Byte
  nacc  : BitVec 3
  oplen : Word
  flen  : Word
  deriving DecidableEq, Repr

/-- The encoder's registers (R44, R50). -/
structure EncRegs where
  esize  : BitVec 13
  dsize  : BitVec 13
  ipos   : Word
  cur    : Code
  firstd : Bool
  deriving DecidableEq, Repr

/-- One access the host makes to the block (R31 to R37, R320, R370, R381). `idle` is a turn in which the host
makes none and the block takes its own step. -/
inductive HostAccess
  | writeCmd (v : Byte)
  | writeCfg (v : Byte)
  | writeWidth (v : Word)
  | writeHeight (v : Word)
  | writeInLen (v : Word)
  | writeStatus (v : Word)
  | writeOutLen (v : Word)
  | writeInConsumed (v : Word)
  | writeIn (a : Nat) (b : Byte)
  | writeOut (a : Nat) (b : Byte)
  | readCmd
  | readCfg
  | readWidth
  | readHeight
  | readInLen
  | readStatus
  | readOutLen
  | readInConsumed
  | readOut (a : Nat)
  | reset
  | idle
  deriving DecidableEq, Repr

/-- MODEL: what the diagnostics sink has received over DIAG (R38, log 15), oldest first, and which burst of records
comes next. Nothing in the block reads either. -/
structure Diag where
  records : List Nat
  turn    : Nat
  deriving DecidableEq, Repr

/-- The whole machine. The code width `w` (R45) and `seq(k)` (R43) are functions of these fields (log 20). -/
structure State where
  /-- The open parameters (R11). -/
  params    : Params
  regs      : HostRegs
  phase     : Phase
  lat       : Latched
  dec       : DecRegs
  unp       : UnpRegs
  pk        : PackRegs
  enc       : EncRegs
  /-- Buffer IN (R70, R71). -/
  inp       : Memory 8
  /-- Buffer OUT (R70, R72). -/
  out       : Memory 8
  /-- Buffer PAY (R70). -/
  pay       : Memory 8
  /-- STK, the reconstruction stack (R52). -/
  stk       : Memory 8
  /-- DICT's PREFIX column (R43). -/
  prefixMem : Memory 12
  /-- DICT's SUFFIX column (R43). -/
  suffixMem : Memory 8
  /-- MODEL: the accesses the host makes, oldest first; the program of this block (95_test_vectors.md §8). -/
  host      : List HostAccess
  /-- MODEL: the value the host's last read returned. -/
  rdata     : Word
  /-- MODEL: the value READCODE, ROWMAP or ADDR returned when run on its own. -/
  ret       : Nat
  /-- MODEL: what has left the block over DIAG. -/
  diag      : Diag
  /-- MODEL: the next unused seed of free values. -/
  free      : Nat
  deriving DecidableEq, Repr

/-- Why the machine stops with no next state. -/
inductive Fault
  /-- Raised by RESOLVE, DICT and DEFER when a PREFIX chain does not end at a literal. R43's invariant rules it
  out in every run, so it is met only in states no run reaches (log 10). Safe. -/
  | brokenDictionary
  /-- Raised by a host write to IN at an address at or beyond IN_CAP: R70 gives the space no such address. Safe. -/
  | noSuchInAddress
  /-- Raised by a host read of OUT at an address at or beyond OUT_CAP: R70 gives the space no such address. Safe. -/
  | noSuchOutAddress
  deriving DecidableEq, Repr

/-- What the model gives no meaning to. R354: a refusal writes no STATUS and ends the run (log 17). All are safe. -/
inductive Refusal
  /-- Raised by exec's arm of an instruction that has no meaning yet (none is left). -/
  | notModelled (mnemonic : String)
  /-- Raised by DECODE, ENCODE and CMD_RESERVED while BUSY = 1 (R301). -/
  | startWhileBusy
  /-- Raised by CMD_RESERVED (R110, R300). -/
  | reservedCommand
  /-- Raised by DECODE and ENCODE when CFG, WIDTH, HEIGHT or IN_LEN is unwritten: R57, R300, R354 and R374 have START
  refused there. -/
  | registerUnwritten
  /-- Raised in phase CHECK by a transaction beyond MAX_PIXELS, IN_CAP or OUT_CAP (R86). -/
  | beyondCapacity
  /-- Raised by a host write to `IN[0 .. ILEN-1]` while BUSY = 1 (R381 (a)). -/
  | hostWroteInWhileBusy
  /-- Raised by a host read of OUT while BUSY = 1 (R381 (b)). -/
  | hostReadOutWhileBusy
  /-- Raised by a host write to OUT: R381 (b) while BUSY = 1, and R70 gives only the block a write to OUT (log 8). -/
  | hostWroteOut
  /-- Raised by a host read of CMD (R31). -/
  | readOfCmd
  deriving DecidableEq, Repr

/-- A buffer with unspecified contents. -/
def Memory.unspecified {w : Nat} (seed : Nat) : Memory w := ⟨[], seed⟩

/-- Open parameters that every value WIDTH, HEIGHT and IN_LEN can hold stays within (DESIGN CHOICE, log 3). -/
def Params.reset : Params := ⟨2 ^ 62, 2 ^ 32 - 1, 2 ^ 62⟩

/-- The host registers after reset (R55): STATUS, OUT_LEN and IN_CONSUMED are 0, and the four the host writes are
unwritten; the zeros those four hold are a DESIGN CHOICE (log 4) no access can see. -/
def HostRegs.reset : HostRegs where
  cfg := 0
  cfgWritten := false
  width := 0
  widthWritten := false
  height := 0
  heightWritten := false
  inLen := 0
  inLenWritten := false
  status := 0
  outLen := 0
  inConsumed := 0

/-- DESIGN CHOICE (log 5): R55 gives the datapath registers no reset value. -/
def Latched.reset : Latched := ⟨.decode, 0, 0, 0, 0, false, false, 0, 0, 0, 0⟩

/-- DESIGN CHOICE (log 5). -/
def DecRegs.reset : DecRegs := ⟨0, .init, 0, false, 0⟩

/-- DESIGN CHOICE (log 5). -/
def UnpRegs.reset : UnpRegs := ⟨0, 0, 0, 0⟩

/-- DESIGN CHOICE (log 5). -/
def PackRegs.reset : PackRegs := ⟨0, 0, 0, 0⟩

/-- DESIGN CHOICE (log 5). -/
def EncRegs.reset : EncRegs := ⟨0, 0, 0, 0, false⟩

/-- The machine after RESET (R55, R370), with the six buffers' unspecified contents named by the seeds
`seed .. seed + 5`. -/
def State.resetWith (params : Params) (host : List HostAccess) (rdata : Word) (diag : Diag) (seed : Nat) :
    State where
  params := params
  regs := HostRegs.reset
  phase := .idle
  lat := Latched.reset
  dec := DecRegs.reset
  unp := UnpRegs.reset
  pk := PackRegs.reset
  enc := EncRegs.reset
  inp := Memory.unspecified seed
  out := Memory.unspecified (seed + 1)
  pay := Memory.unspecified (seed + 2)
  stk := Memory.unspecified (seed + 3)
  prefixMem := Memory.unspecified (seed + 4)
  suffixMem := Memory.unspecified (seed + 5)
  host := host
  rdata := rdata
  ret := 0
  diag := diag
  free := seed + 6

/-- The machine right after power-on reset: no access is pending. -/
def State.reset : State := State.resetWith Params.reset [] 0 ⟨[], 0⟩ 0

/-! Updates, one per field: the only way the operations write State. Their lemmas are in Laws/State.lean. -/

def State.setRegs (s : State) (x : HostRegs) : State := { s with regs := x }
def State.setPhase (s : State) (x : Phase) : State := { s with phase := x }
def State.setLat (s : State) (x : Latched) : State := { s with lat := x }
def State.setDec (s : State) (x : DecRegs) : State := { s with dec := x }
def State.setUnp (s : State) (x : UnpRegs) : State := { s with unp := x }
def State.setPk (s : State) (x : PackRegs) : State := { s with pk := x }
def State.setEnc (s : State) (x : EncRegs) : State := { s with enc := x }
def State.setInp (s : State) (x : Memory 8) : State := { s with inp := x }
def State.setOut (s : State) (x : Memory 8) : State := { s with out := x }
def State.setPay (s : State) (x : Memory 8) : State := { s with pay := x }
def State.setStk (s : State) (x : Memory 8) : State := { s with stk := x }
def State.setPrefix (s : State) (x : Memory 12) : State := { s with prefixMem := x }
def State.setSuffix (s : State) (x : Memory 8) : State := { s with suffixMem := x }
def State.setHost (s : State) (x : List HostAccess) : State := { s with host := x }
def State.setRdata (s : State) (x : Word) : State := { s with rdata := x }
def State.setRet (s : State) (x : Nat) : State := { s with ret := x }
def State.setDiag (s : State) (x : Diag) : State := { s with diag := x }
def State.setFree (s : State) (x : Nat) : State := { s with free := x }

end Sys2Proof.Machine
end

