-- ==== Sys2Proof/Machine/Flags.lean ====
section
/-! DEFINITION. The block's only flags, STATUS.BUSY, DONE and ERR, and the fields beside them (R35, R56), with
the numbers of the error kinds and causes (R330, R331). -/

namespace Sys2Proof.Machine

/-- STATUS put together from its fields (R35); the reserved bits 7:5 and 15:12 are 0. -/
def statusWord (busy done err : Bool) (kind : BitVec 2) (detail : BitVec 4) : BitVec 16 :=
  0#4 ++ detail ++ 0#3 ++ kind ++ BitVec.ofBool err ++ BitVec.ofBool done ++ BitVec.ofBool busy

/-- STATUS.BUSY (R35). -/
def statusBusy (st : BitVec 16) : Bool := st.getLsbD 0

/-- STATUS.DONE (R35). -/
def statusDone (st : BitVec 16) : Bool := st.getLsbD 1

/-- STATUS.ERR (R35). -/
def statusErr (st : BitVec 16) : Bool := st.getLsbD 2

/-- STATUS.KIND (R35). -/
def statusKind (st : BitVec 16) : BitVec 2 := st.extractLsb' 3 2

/-- STATUS.DETAIL (R35). -/
def statusDetail (st : BitVec 16) : BitVec 4 := st.extractLsb' 8 4

/-- The KIND of a cause (R330, R331): 1 InputFormatError, 2 CapacityError, 3 ConsistencyError. -/
def causeKind : Cause → BitVec 2
  | .mcsRange | .frameOverrun | .frameNoTerminator | .prematureEnd | .badCode | .deferNoPrev => 1#2
  | .dimNonpositive | .mcsRangeEnc | .indexRange => 2#2
  | .decodeCount | .encodeLength => 3#2

/-- The DETAIL of a cause (R331). -/
def causeDetail : Cause → BitVec 4
  | .mcsRange => 1#4
  | .frameOverrun => 2#4
  | .frameNoTerminator => 3#4
  | .prematureEnd => 4#4
  | .badCode => 5#4
  | .deferNoPrev => 6#4
  | .dimNonpositive => 8#4
  | .mcsRangeEnc => 9#4
  | .indexRange => 10#4
  | .decodeCount => 12#4
  | .encodeLength => 13#4

/-- STATUS while a transaction runs (R300). -/
def statusRunning : BitVec 16 := statusWord true false false 0 0

/-- STATUS after a success (R307, R316). -/
def statusSuccess : BitVec 16 := statusWord false true false 0 0

/-- STATUS after an abort (R334). -/
def statusAborted (x : Cause) : BitVec 16 := statusWord false true true (causeKind x) (causeDetail x)

/-- BUSY of a machine state. -/
def State.busy (s : State) : Bool := statusBusy s.regs.status

end Sys2Proof.Machine
end

