-- ==== Sys2Proof/Machine/Operands.lean ====
section
/-! DEFINITION. Operand forms: code widths, the assembly of a code from payload bits, the fields of CFG, the
narrowing to a register's width, and the framed-length bound. -/

namespace Sys2Proof.Machine

/-- The smallest `w` at or above the start with `t <= 2^w`, looked for in at most `n` increments. -/
def leastWidth : (n w t : Nat) → Nat
  | 0, w, _ => w
  | n + 1, w, t => if t ≤ 2 ^ w then w else leastWidth n (w + 1) t

/-- `Wd(D)` (R15): the smallest `w` with `2^w >= min(D + 1, 4096)`. -/
def Wd (D : Nat) : Nat :=
  leastWidth Config.maxW 0 (min (D + 1) Config.dictCap)

/-- Bit `i` of a natural, as 0 or 1: the pseudocode's `(v div 2^i) mod 2` (R146, R156). -/
def bitAt (v i : Nat) : Nat :=
  v / 2 ^ i % 2

/-- `sum over i in 0 .. w-1 of (bit i) * 2^i` (R101). -/
def sumBits (bit : Nat → Nat) : Nat → Nat
  | 0 => 0
  | w + 1 => sumBits bit w + bit w * 2 ^ w

/-- `ceil(a / b)` on naturals. -/
def ceilDiv (a b : Nat) : Nat :=
  (a + b - 1) / b

/-- `F(N)` (R86): the bound on the framed length of an encode of `N` indices. -/
def framedBound (N : Nat) : Nat :=
  (3 * N + 3) + ceilDiv (3 * N + 3) 255 + 1

/-- CFG.MCS = CFG[3:0] (R111). -/
def cfgMcs (cfg : Byte) : BitVec 4 := cfg.extractLsb' 0 4

/-- CFG.INTERLACED = CFG[4] (R111). -/
def cfgInterlaced (cfg : Byte) : Bool := cfg.getLsbD 4

/-- CFG.NORESET = CFG[5] (R111). -/
def cfgNoReset (cfg : Byte) : Bool := cfg.getLsbD 5

/-- What a host write leaves in CFG: the reserved bits CFG[7:6] ignore it (R32). -/
def cfgStored (v : Byte) : Byte := v &&& 0x3F#8

/-- A natural put into a `w`-bit register (R12). A value the register cannot hold leaves a free value in it
(log 19). -/
def narrow (w v : Nat) : BitVec w :=
  if v < 2 ^ w then BitVec.ofNat w v else BitVec.ofNat w (Config.narrowOpen w v)

/-- Beyond MAX_PIXELS, IN_CAP or OUT_CAP (R86): `N` pixels, `ilen` bytes of IN, `need` bytes of OUT. -/
def overCapacity (caps : Params) (N ilen need : Nat) : Bool :=
  decide (caps.maxPixels < N ∨ caps.inCap < ilen ∨ caps.outCap < need)

/-- The legal `minCodeSize` values, 2 to 8 (R10). -/
def mcsLegal (m : Nat) : Bool :=
  decide (Config.mcsMin ≤ m ∧ m ≤ Config.mcsMax)

end Sys2Proof.Machine
end

