-- ==== Sys2Proof/Syntax.lean ====
section
/-! DEFINITION. The instructions: one constructor per row of spec/opcode_table.json. The block has no
processor-style instruction set (30_encoding.md); its rows are the host's commands, the code classes the decoder
executes, the codes the encoder emits, the framing words, and the internal steps sequenced by their rules.
An operand that the row's class fixes (CLEAR is always `2^m`) is not carried (log 13). -/

namespace Sys2Proof

inductive Instr
  -- format CMD (R110)
  /-- DECODE: CMD `0x81`. -/
  | decode
  /-- ENCODE: CMD `0x82`. -/
  | encode
  /-- CMD_NOP: a CMD write with START = 0; `low` is CMD[6:0]. -/
  | cmdNop (low : BitVec 7)
  /-- CMD_RESERVED: a CMD write with START = 1 that is neither DECODE nor ENCODE; `low` is CMD[6:0]. -/
  | cmdReserved (low : BitVec 7)
  -- format CODE_w as the decoder reads it: the classes of R105
  /-- CLEAR: `c = 2^m`. -/
  | clear
  /-- END: `c = 2^m + 1`. -/
  | endCode
  /-- LIT: `c < 2^m`, so `c` fits one byte. -/
  | lit (c : Byte)
  /-- DICT: `FIRST_FREE <= c < D`. -/
  | dict (c : Code)
  /-- DEFER: `c = D`, `D < 4096`, with a previous code. -/
  | defer
  /-- BADCODE: `c > D`, or `c = D` with no previous code. -/
  | badcode (c : Code)
  -- format CODE_w as the encoder emits it: the output classes of R107
  | eClearStart
  /-- E_DATA: the code of a longest match. -/
  | eData (c : Code)
  | eClearFull
  | eEnd
  -- formats SUBBLOCK and TERM (R108)
  /-- SUBBLOCK: a length byte and that many payload bytes. -/
  | subblock (payload : List Byte)
  | term
  -- internal steps of the packing layer
  | packInit
  | putbyte (b : Byte)
  | writecode (code : Code) (width : Nat)
  | flush
  | deframe
  | readcode (width : Nat)
  -- internal steps of the decoder
  | decoderInit
  /-- INSERT(S): `c` is the code processed, `s0` is `S[0]`, all INSERT reads of `S`. -/
  | insert (c : Code) (s0 : Byte)
  | output (syms : List Byte)
  | decstep
  | resolve (k : Code)
  -- internal steps of the encoder
  | encoderInit
  | dataSent
  | emit (c : Code)
  | matchStart
  | encStep
  | extend (k : Code)
  | miss (c : Byte)
  | insertE (p : Code) (c : Byte)
  | final
  -- interlace mapper
  | rowmap (r : Nat)
  | addr (p : Nat)
  -- transaction ends
  | finishDecode
  | finishEncode
  | abort (cause : Cause)
  | reset
  deriving DecidableEq, Repr

end Sys2Proof
end

