-- ==== Sys2Proof/WellFormed.lean ====
section
/-! DEFINITION. Which instruction terms stand for an instruction: the checks that need only the term
(`Instr.wf`), and those that need the reader's state, on which a code's class depends (R105, `Instr.wfIn`). -/

namespace Sys2Proof

/-- What a reader knows when it reads a code (R112): `minCodeSize`, the dictionary size `D`, and whether a
previous code exists. -/
structure Ctx where
  m         : Nat
  d         : Nat
  prevValid : Bool
  deriving DecidableEq, Repr

/-- The contexts a transaction past CHECK can be in (R44, R340). -/
def Ctx.ok (x : Ctx) : Bool :=
  decide (2 ≤ x.m ∧ x.m ≤ 8 ∧ 2 ^ x.m + 2 ≤ x.d ∧ x.d ≤ 4096)

/-- A reserved CMD low half: OP in {0, 3} or a nonzero CMD[6:2] (R110). -/
def reservedLow (low : BitVec 7) : Bool :=
  decide (low.toNat % 4 = 0 ∨ low.toNat % 4 = 3 ∨ low.toNat / 4 ≠ 0)

/-- Well-formed as a term: width operands are 3 to 12 (R146, R156), a sub-block holds 1 to 255 bytes (R108), a
reserved command is reserved (R110). -/
def Instr.wf : Instr → Bool
  | .cmdReserved low => reservedLow low
  | .subblock payload => decide (1 ≤ payload.length ∧ payload.length ≤ 255)
  | .writecode _ w => decide (3 ≤ w ∧ w ≤ 12)
  | .readcode w => decide (3 ≤ w ∧ w ≤ 12)
  | .decode | .encode | .cmdNop _ | .clear | .endCode | .lit _ | .dict _ | .defer | .badcode _ => true
  | .eClearStart | .eData _ | .eClearFull | .eEnd | .term | .packInit | .putbyte _ | .flush => true
  | .deframe | .decoderInit | .insert _ _ | .output _ | .decstep | .resolve _ | .encoderInit => true
  | .dataSent | .emit _ | .matchStart | .encStep | .extend _ | .miss _ | .insertE _ _ | .final => true
  | .rowmap _ | .addr _ | .finishDecode | .finishEncode | .abort _ | .reset => true

/-- Well-formed for a reader in context `x`: the class conditions of R105, read with `D = x.d`; for a code the
encoder emits, `x.d` is DSIZE and the code fits the width (R249). -/
def Instr.wfIn (x : Ctx) : Instr → Bool
  | .lit c => decide (c.toNat < 2 ^ x.m)
  | .dict c => decide (2 ^ x.m + 2 ≤ c.toNat ∧ c.toNat < x.d)
  | .defer => decide (x.d < 4096) && x.prevValid
  | .badcode c => decide (x.d < c.toNat) || (decide (c.toNat = x.d) && !x.prevValid)
  | .eData c => decide (c.toNat ≤ x.d ∧ c.toNat ≠ 2 ^ x.m ∧ c.toNat ≠ 2 ^ x.m + 1)
  | .resolve k => decide (k.toNat < x.d ∧ k.toNat ≠ 2 ^ x.m ∧ k.toNat ≠ 2 ^ x.m + 1)
  | .decode | .encode | .cmdNop _ | .cmdReserved _ | .clear | .endCode => true
  | .eClearStart | .eClearFull | .eEnd | .subblock _ | .term | .packInit | .putbyte _ => true
  | .writecode _ _ | .flush | .deframe | .readcode _ | .decoderInit | .insert _ _ | .output _ => true
  | .decstep | .encoderInit | .dataSent | .emit _ | .matchStart | .encStep | .extend _ | .miss _ => true
  | .insertE _ _ | .final | .rowmap _ | .addr _ | .finishDecode | .finishEncode | .abort _ | .reset => true

end Sys2Proof
end

