-- ==== Sys2Proof/Machine/Ops.lean ====
section
/-! DEFINITION. The named operations over memory and registers that the meanings share: the address spaces of
R70, the packer's and unpacker's cursors, ABORT, and sequencing. -/

namespace Sys2Proof.Machine

/-! ### Address spaces -/

/-- The element listed at address `a`. -/
def findCell {w : Nat} (a : Nat) : List (Nat × BitVec w) → Option (BitVec w)
  | [] => none
  | (k, v) :: rest => if k = a then some v else findCell a rest

/-- The list with `v` at address `a`, addresses kept strictly rising. -/
def putCell {w : Nat} (a : Nat) (v : BitVec w) : List (Nat × BitVec w) → List (Nat × BitVec w)
  | [] => [(a, v)]
  | (k, u) :: rest =>
    if a < k then (a, v) :: (k, u) :: rest
    else if a = k then (a, v) :: rest
    else (k, u) :: putCell a v rest

/-- What an address that nothing has written reads as: a free value (log 1). Reading it again gives the same
(R77). -/
def Memory.unwritten {w : Nat} (mem : Memory w) (a : Nat) : BitVec w :=
  BitVec.ofNat w (Config.freeNat mem.seed a)

/-- `MemRead(space, a, 1)` (R14); a read changes nothing (R77). -/
def Memory.read {w : Nat} (mem : Memory w) (a : Nat) : BitVec w :=
  match findCell a mem.cells with
  | some v => v
  | none => mem.unwritten a

/-- `MemWrite(space, a, 1, v)` (R14); it changes only that element (R77). -/
def Memory.write {w : Nat} (mem : Memory w) (a : Nat) (v : BitVec w) : Memory w :=
  { mem with cells := putCell a v mem.cells }

/-- Successive writes from address `a` up. -/
def Memory.writeList {w : Nat} (mem : Memory w) (a : Nat) : List (BitVec w) → Memory w
  | [] => mem
  | v :: vs => (mem.write a v).writeList (a + 1) vs

/-- The canonical form: addresses strictly rising, so no address is listed twice. An unwritten address reads as
no fixed value, so no entry can equal what it reads as. -/
abbrev Memory.wf {w : Nat} (mem : Memory w) : Prop :=
  mem.cells.Pairwise fun p q => p.1 < q.1

/-! ### Sequencing -/

/-- Run `f` from the next state, if there is one. -/
def andThen (o : Host.Outcome State Fault Refusal) (f : State → Host.Outcome State Fault Refusal) :
    Host.Outcome State Fault Refusal :=
  match o with
  | .next s => f s
  | .fault r => .fault r
  | .refused r => .refused r

/-! ### Views of the registers -/

/-- The reader's state for the decoder (R112): `m`, `D`, PREV_VALID. -/
def State.decCtx (s : State) : Ctx := ⟨s.lat.m.toNat, s.dec.d.toNat, s.dec.prevValid⟩

/-- The decoder's code width, `w = Wd(D)` (R45). -/
def State.decWidth (s : State) : Nat := Wd s.dec.d.toNat

/-- The encoder's code width, `w = Wd(DSIZE)` (R45). -/
def State.encWidth (s : State) : Nat := Wd s.enc.dsize.toNat

/-! ### ABORT: `raise K(X)` (R334) -/

/-- Latched registers left unspecified. -/
def Latched.unspecified (seed : Nat) : Latched where
  op := if Config.freeNat seed 0 % 2 = 0 then .decode else .encode
  m := BitVec.ofNat 4 (Config.freeNat seed 1)
  clear := BitVec.ofNat 9 (Config.freeNat seed 2)
  endCode := BitVec.ofNat 9 (Config.freeNat seed 3)
  firstFree := BitVec.ofNat 9 (Config.freeNat seed 4)
  intl := decide (Config.freeNat seed 5 % 2 = 1)
  nr := decide (Config.freeNat seed 6 % 2 = 1)
  wid := BitVec.ofNat 32 (Config.freeNat seed 7)
  hgt := BitVec.ofNat 32 (Config.freeNat seed 8)
  ilen := BitVec.ofNat 32 (Config.freeNat seed 9)
  n := Config.freeNat seed 10

/-- A decoder state taken from a free natural. -/
def dstateOf (v : Nat) : DState :=
  if v % 4 = 0 then .init else if v % 4 = 1 then .reading else if v % 4 = 2 then .cleared else .done

/-- Decoder registers left unspecified. -/
def DecRegs.unspecified (seed : Nat) : DecRegs where
  d := BitVec.ofNat 13 (Config.freeNat seed 0)
  dstate := dstateOf (Config.freeNat seed 1)
  prev := BitVec.ofNat 12 (Config.freeNat seed 2)
  prevValid := decide (Config.freeNat seed 3 % 2 = 1)
  ocount := Config.freeNat seed 4

/-- Unpacker registers left unspecified. -/
def UnpRegs.unspecified (seed : Nat) : UnpRegs where
  fpos := BitVec.ofNat 32 (Config.freeNat seed 0)
  icons := BitVec.ofNat 32 (Config.freeNat seed 1)
  plen := BitVec.ofNat 32 (Config.freeNat seed 2)
  bitpos := BitVec.ofNat 35 (Config.freeNat seed 3)

/-- Packer registers left unspecified. -/
def PackRegs.unspecified (seed : Nat) : PackRegs where
  acc := BitVec.ofNat 8 (Config.freeNat seed 0)
  nacc := BitVec.ofNat 3 (Config.freeNat seed 1)
  oplen := BitVec.ofNat 32 (Config.freeNat seed 2)
  flen := BitVec.ofNat 32 (Config.freeNat seed 3)

/-- Encoder registers left unspecified. -/
def EncRegs.unspecified (seed : Nat) : EncRegs where
  esize := BitVec.ofNat 13 (Config.freeNat seed 0)
  dsize := BitVec.ofNat 13 (Config.freeNat seed 1)
  ipos := BitVec.ofNat 32 (Config.freeNat seed 2)
  cur := BitVec.ofNat 12 (Config.freeNat seed 3)
  firstd := decide (Config.freeNat seed 4 % 2 = 1)

/-- Every datapath register, DICT, STK, PAY and OUT left unspecified, named by the seeds `s.free .. s.free + 9`
(R334). IN, the host registers and the host's accesses are not touched. -/
def scrambleDatapath (s : State) : State :=
  { s with
    lat := Latched.unspecified s.free
    dec := DecRegs.unspecified (s.free + 1)
    unp := UnpRegs.unspecified (s.free + 2)
    pk := PackRegs.unspecified (s.free + 3)
    enc := EncRegs.unspecified (s.free + 4)
    out := Memory.unspecified (s.free + 5)
    pay := Memory.unspecified (s.free + 6)
    stk := Memory.unspecified (s.free + 7)
    prefixMem := Memory.unspecified (s.free + 8)
    suffixMem := Memory.unspecified (s.free + 9)
    free := s.free + 10 }

/-- ABORT (R334), the block's one exception: STATUS reports the cause, the result registers are cleared, the
sequencer returns to IDLE, and everything the transaction held is left unspecified. There is no return from it
(R336): the only way on is a new START. What it leaves unspecified is a free value (log 18). -/
def abortState (x : Cause) (s : State) : State :=
  ((scrambleDatapath s).setRegs
    { s.regs with status := statusAborted x, outLen := 0, inConsumed := 0 }).setPhase .idle

end Sys2Proof.Machine
end

