-- ==== Sys2Proof/Machine/Commands.lean ====
section
/-! DEFINITION. The command interface (44_operations.md), the checks of phase CHECK (60_exceptions.md §3), the
ends of a transaction, ABORT and RESET. -/

namespace Sys2Proof.Machine

/-! ### START (R300) -/

/-- CFG, WIDTH, HEIGHT and IN_LEN have been written since reset (R57). -/
def regsWritten (r : HostRegs) : Bool :=
  r.cfgWritten && r.widthWritten && r.heightWritten && r.inLenWritten

/-- The parameter latch (R42, R380). `N` is latched in phase CHECK. -/
def latch (op : Op) (r : HostRegs) (old : Latched) : Latched where
  op := op
  m := cfgMcs r.cfg
  clear := narrow 9 (2 ^ (cfgMcs r.cfg).toNat)
  endCode := narrow 9 (2 ^ (cfgMcs r.cfg).toNat + 1)
  firstFree := narrow 9 (2 ^ (cfgMcs r.cfg).toNat + 2)
  intl := cfgInterlaced r.cfg
  nr := cfgNoReset r.cfg
  wid := r.width
  hgt := r.height
  ilen := r.inLen
  n := old.n

/-- The state START leaves (R300): STATUS busy, results cleared, parameters latched, PHASE CHECK. The phases of
R306 and R314 then run one block step after another (R390). -/
def started (op : Op) (s : State) : State :=
  ((s.setRegs { s.regs with status := statusRunning, outLen := 0, inConsumed := 0 }).setLat
    (latch op s.regs s.lat)).setPhase .check

/-- START of operation `op` (R300, R301, R57). -/
def start (op : Op) (s : State) : Host.Outcome State Fault Refusal :=
  if s.busy then .refused .startWhileBusy
  else if regsWritten s.regs then .next (started op s)
  else .refused .registerUnwritten

/-! ### Phase CHECK (R306, R314, R338, R340 to R343) -/

/-- `WID <= 0 or HGT <= 0`, as signed values (R341). -/
def dimsBad (l : Latched) : Bool :=
  decide (l.wid.toInt ≤ 0 ∨ l.hgt.toInt ≤ 0)

/-- `WID * HGT` (R42), read once both are positive. -/
def pixelCount (l : Latched) : Nat := l.wid.toNat * l.hgt.toNat

/-- Beyond MAX_PIXELS, IN_CAP or OUT_CAP (R86), `need` being the bytes of OUT the transaction needs. -/
def beyondCapacity (s : State) (need : Nat) : Bool :=
  overCapacity s.params (pixelCount s.lat) s.lat.ilen.toNat need

/-- An index of `IN[0 .. N-1]` at or above `2^m` (R343). -/
def indexBad (s : State) : Bool :=
  (List.range (pixelCount s.lat)).any fun i => decide (2 ^ s.lat.m.toNat ≤ (s.inp.read i).toNat)

/-- CHECK of a DECODE (R306): the checks in R338's order, then phase DEFRAME. -/
def checkDecode (s : State) : Host.Outcome State Fault Refusal :=
  if mcsLegal s.lat.m.toNat = false then .next (abortState .mcsRange s)
  else if dimsBad s.lat then .next (abortState .dimNonpositive s)
  else if beyondCapacity s (pixelCount s.lat) then .refused .beyondCapacity
  else .next ((s.setLat { s.lat with n := pixelCount s.lat }).setPhase .deframe)

/-- CHECK of an ENCODE (R314): the checks in R338's order, then phase ENCODE. -/
def checkEncode (s : State) : Host.Outcome State Fault Refusal :=
  if mcsLegal s.lat.m.toNat = false then .next (abortState .mcsRangeEnc s)
  else if dimsBad s.lat then .next (abortState .dimNonpositive s)
  else if s.lat.ilen.toNat ≠ pixelCount s.lat then .next (abortState .encodeLength s)
  else if beyondCapacity s (framedBound (pixelCount s.lat)) then .refused .beyondCapacity
  else if indexBad s then .next (abortState .indexRange s)
  else .next ((s.setLat { s.lat with n := pixelCount s.lat }).setPhase .encode)

/-! ### Phase FINISH -/

/-- Publish a success (R307, R316): the results, STATUS done, PHASE IDLE. -/
def publish (outLen inConsumed : Word) (s : State) : State :=
  (s.setRegs { s.regs with status := statusSuccess, outLen := outLen, inConsumed := inConsumed }).setPhase .idle

/-! ### Meanings -/

/-- DECODE (R300 with OP = 1, R306). -/
def execDecode (s : State) : Host.Outcome State Fault Refusal := start .decode s

/-- ENCODE (R300 with OP = 2, R314). -/
def execEncode (s : State) : Host.Outcome State Fault Refusal := start .encode s

/-- CMD_NOP: a write with START = 0 has no effect (R300). -/
def execCmdNop (_low : BitVec 7) (s : State) : Host.Outcome State Fault Refusal := .next s

/-- CMD_RESERVED: refused, BUSY being looked at first (R110, R300, R301). -/
def execCmdReserved (_low : BitVec 7) (s : State) : Host.Outcome State Fault Refusal :=
  if s.busy then .refused .startWhileBusy else .refused .reservedCommand

/-- FINISH_DECODE (R307): the count check (R190), then the results. OUT_LEN has 32 bits (R36), and an `N` it cannot
hold leaves a free value there (log 19). -/
def execFinishDecode (s : State) : Host.Outcome State Fault Refusal :=
  if s.dec.ocount = s.lat.n then .next (publish (narrow 32 s.lat.n) s.unp.icons s)
  else .next (abortState .decodeCount s)

/-- FINISH_ENCODE (R316). -/
def execFinishEncode (s : State) : Host.Outcome State Fault Refusal :=
  .next (publish s.pk.flen s.lat.ilen s)

/-- ABORT (R334). -/
def execAbort (x : Cause) (s : State) : Host.Outcome State Fault Refusal := .next (abortState x s)

/-- RESET (R370, R371): every piece of the spec's state takes R55's value, at any time (IN's contents: log 6). The
open parameters, the host's pending accesses, what the host last read and what DIAG has carried are not the block's. -/
def execReset (s : State) : Host.Outcome State Fault Refusal :=
  .next (State.resetWith s.params s.host s.rdata s.diag s.free)

end Sys2Proof.Machine
end

