-- ==== Sys2Proof/Machine/Interlace.lean ====
section
/-! DEFINITION. The interlace row mapper (43_interlace.md): ROWMAP and ADDR. -/

namespace Sys2Proof.Machine

/-- `n_i` (R282): the rows a pass holds below height `H`. -/
def passRows (H stride off : Nat) : Nat :=
  if off < H then ceilDiv (H - off) stride else 0

/-- The loop of R283 over the passes left, `base` rows into the arrival order; none when it ends without a row. -/
def rowmapGo (H r : Nat) : List (Nat × Nat) → Nat → Option Nat
  | [], _ => none
  | (stride, off) :: rest, base =>
    if r < base + passRows H stride off then some (off + stride * (r - base))
    else rowmapGo H r rest (base + passRows H stride off)

/-- ROWMAP(r) for the latched height (R283): physical row to logical row. HGT is signed (R33), and one that is not
positive holds no rows. R283 gives ROWMAP for `r < H`; beyond that its loop returns nothing, and the answer is a free
value (log 2). -/
def rowmap (hgt : Word) (r : Nat) : Nat :=
  match rowmapGo hgt.toInt.toNat r Config.passes 0 with
  | some row => row
  | none => Config.rowmapOpen hgt r

/-- ADDR(p) (R284): the OUT address of the index at stream position `p`. With `INTL = 1` and a WID that is not
positive it is a free value (log 2). -/
def addrOf (l : Latched) (p : Nat) : Nat :=
  if l.intl then
    if 0 < l.wid.toInt then rowmap l.hgt (p / l.wid.toNat) * l.wid.toNat + p % l.wid.toNat
    else Config.addrOpen l.wid l.hgt p
  else p

/-- ROWMAP run on its own: the row it returns is left in `ret`. -/
def execRowmap (r : Nat) (s : State) : Host.Outcome State Fault Refusal :=
  .next (s.setRet (rowmap s.lat.hgt r))

/-- ADDR run on its own: the address it returns is left in `ret`. -/
def execAddr (p : Nat) (s : State) : Host.Outcome State Fault Refusal :=
  .next (s.setRet (addrOf s.lat p))

end Sys2Proof.Machine
end

