-- ==== Sys2Proof/Decode.lean ====
section
/-! DEFINITION. From the encoded objects of 30_encoding.md to instructions, total and rejecting by name, and
back: CMD bytes (R110), codes of the code stream (R100, R101, R105), framing words (R108). -/

namespace Sys2Proof

open Machine (Wd sumBits)

/-- An encoded object: a CMD byte, a code's bits in payload order (bit 0 of the code first, R74), framing bytes,
or none: an internal step sequenced by its rule. -/
inductive Encoding
  | cmd (b : Byte)
  | code (bits : List Bool)
  | frame (bytes : List Byte)
  | internal
  deriving DecidableEq, Repr

/-- Why an object is not an instruction. -/
inductive Reject
  /-- The code does not have the width `Wd(D)` the reader reads (R102). -/
  | wrongWidth
  /-- No length byte is left (R151, FRAME_NO_TERMINATOR). -/
  | noLengthByte
  /-- A length byte declares more bytes than are left (R151, FRAME_OVERRUN). -/
  | overrun
  /-- An internal step has no encoding. -/
  | noEncoding
  deriving DecidableEq, Repr

/-- CMD (R110): `OP = CMD[1:0]`, `CMD[6:2] = 0`, `START = CMD[7]`. -/
def decodeCmd (v : Byte) : Instr :=
  if v.getLsbD 7 = false then .cmdNop (v.extractLsb' 0 7)
  else if v = 0x81#8 then .decode
  else if v = 0x82#8 then .encode
  else .cmdReserved (v.extractLsb' 0 7)

/-- The classes of R105. -/
inductive CodeClass
  | clear
  | endCode
  | lit (c : Byte)
  | dict (c : Code)
  | defer
  | badcode (c : Code)
  deriving DecidableEq, Repr

/-- The code map of R105, its conditions tested in that rule's order. -/
def classify (x : Ctx) (c : Code) : CodeClass :=
  if c.toNat = 2 ^ x.m then .clear
  else if c.toNat = 2 ^ x.m + 1 then .endCode
  else if c.toNat < 2 ^ x.m then .lit (c.setWidth 8)
  else if c.toNat < x.d then .dict c
  else if c.toNat = x.d ∧ x.d < Config.dictCap ∧ x.prevValid then .defer
  else .badcode c

/-- The instruction a class names. -/
def CodeClass.instr : CodeClass → Instr
  | .clear => .clear
  | .endCode => .endCode
  | .lit c => .lit c
  | .dict c => .dict c
  | .defer => .defer
  | .badcode c => .badcode c

/-- The code spelled by bits in payload order (R101), zero-extended to 12 bits. -/
def codeOfBits (bits : List Bool) : Code :=
  BitVec.ofNat 12 (sumBits (fun i => (bits.getD i false).toNat) bits.length)

/-- One code of the stream, read in context `x`: its width must be `Wd(D)` (R102). -/
def decodeCode (x : Ctx) (bits : List Bool) : Except Reject Instr :=
  if bits.length = Wd x.d then .ok (classify x (codeOfBits bits)).instr else .error .wrongWidth

/-- A framing word (R108). -/
inductive FrameWord
  | subblock (payload : List Byte)
  | term
  deriving DecidableEq, Repr

/-- The first framing word of a byte sequence (R108, R109, R151); what follows it stays in the sequence. -/
def decodeFrame : List Byte → Except Reject FrameWord
  | [] => .error .noLengthByte
  | L :: rest =>
    if L = 0#8 then .ok .term
    else if rest.length < L.toNat then .error .overrun
    else .ok (.subblock (rest.take L.toNat))

/-- The instruction a framing word is. -/
def FrameWord.instr : FrameWord → Instr
  | .subblock payload => .subblock payload
  | .term => .term

/-- The decoder: total on every encoded object in every context. -/
def decode (x : Ctx) : Encoding → Except Reject Instr
  | .cmd b => .ok (decodeCmd b)
  | .code bits => decodeCode x bits
  | .frame bytes => (decodeFrame bytes).map FrameWord.instr
  | .internal => .error .noEncoding

/-- The bits of code `c` at width `w`, least significant first (R74). -/
def codeBits (c w : Nat) : List Bool :=
  (List.range w).map fun i => c.testBit i

/-- A code field of the reader's width (R100, R102). -/
def encodeCode (x : Ctx) (c : Nat) : Encoding :=
  .code (codeBits c (Wd x.d))

/-- The encoder: the object of a well-formed instruction, from the formats of 30_encoding.md. The codes the
encoder unit emits (R107) are spelled with `x.d = DSIZE`. -/
def encode (x : Ctx) : Instr → Encoding
  | .decode => .cmd 0x81#8
  | .encode => .cmd 0x82#8
  | .cmdNop low => .cmd (0#1 ++ low)
  | .cmdReserved low => .cmd (1#1 ++ low)
  | .clear => encodeCode x (2 ^ x.m)
  | .endCode => encodeCode x (2 ^ x.m + 1)
  | .lit c => encodeCode x c.toNat
  | .dict c => encodeCode x c.toNat
  | .defer => encodeCode x x.d
  | .badcode c => encodeCode x c.toNat
  | .eClearStart => encodeCode x (2 ^ x.m)
  | .eData c => encodeCode x c.toNat
  | .eClearFull => encodeCode x (2 ^ x.m)
  | .eEnd => encodeCode x (2 ^ x.m + 1)
  | .subblock payload => .frame (BitVec.ofNat 8 payload.length :: payload)
  | .term => .frame [0#8]
  | .packInit | .putbyte _ | .writecode _ _ | .flush | .deframe | .readcode _ => .internal
  | .decoderInit | .insert _ _ | .output _ | .decstep | .resolve _ => .internal
  | .encoderInit | .dataSent | .emit _ | .matchStart | .encStep | .extend _ | .miss _ => .internal
  | .insertE _ _ | .final | .rowmap _ | .addr _ | .finishDecode | .finishEncode => .internal
  | .abort _ | .reset => .internal

/-- The host's view of the opcode table: a table word is a CMD byte, since commands are the only words the block
is given while idle (R84, R112: a command is always 8 bits). The word `00` is CMD_NOP there; TERM's `00` is met
only in phase DEFRAME (log 12). -/
def decodeTableWord (nbits w : Nat) : Option Instr :=
  if nbits = 8 ∧ w < 256 then some (decodeCmd (BitVec.ofNat 8 w)) else none

end Sys2Proof
end

