-- ==== Sys2Proof/Machine/Packing.lean ====
section
/-! DEFINITION. The bit-level packing layer (40_packing.md): packer, deframer, unpacker. -/

namespace Sys2Proof.Machine

/-! ### Packer -/

/-- PACK_INIT (R141). -/
def packInit (s : State) : State :=
  s.setPk { s.pk with acc := 0, nacc := 0, oplen := 0 }

/-- The OUT address of payload byte `i` (R142): its sub-block's length byte and the ones before it come first. -/
def payloadAddr (i : Nat) : Nat :=
  i + i / Config.subMax + 1

/-- PUTBYTE (R142). -/
def putByte (b : Byte) (s : State) : State :=
  (s.setOut (s.out.write (payloadAddr s.pk.oplen.toNat) b)).setPk
    { s.pk with oplen := narrow 32 (s.pk.oplen.toNat + 1) }

/-- One turn of WRITECODE's loop (R146): a bit enters ACC, and a full ACC is a payload byte. -/
def writeBit (bit : Nat) (s : State) : State :=
  let acc := narrow 8 (s.pk.acc.toNat + bit * 2 ^ s.pk.nacc.toNat)
  if s.pk.nacc.toNat + 1 = 8 then
    let s1 := putByte acc s
    s1.setPk { s1.pk with acc := 0, nacc := 0 }
  else
    s.setPk { s.pk with acc := acc, nacc := s.pk.nacc + 1 }

/-- WRITECODE's loop from bit `i`, `n` bits to go. -/
def writeBits (code : Nat) : (i n : Nat) → State → State
  | _, 0, s => s
  | i, n + 1, s => writeBits code (i + 1) n (writeBit (bitAt code i) s)

/-- `writeCode(code, width)` (R146): bits of `code` at `width` and above are dropped. -/
def writeCode (code : Code) (width : Nat) (s : State) : State :=
  writeBits code.toNat 0 width s

/-- The first lines of FLUSH (R147): a partial byte is written out, its unused high bits 0. -/
def flushPartial (s : State) : State :=
  if 0 < s.pk.nacc.toNat then
    let s1 := putByte s.pk.acc s
    s1.setPk { s1.pk with acc := 0, nacc := 0 }
  else s

/-- The length bytes of the sub-blocks `0 .. nb-1` of a `P`-byte payload (R147). -/
def writeLengths (P : Nat) : (nb : Nat) → Memory 8 → Memory 8
  | 0, mem => mem
  | nb + 1, mem => (writeLengths P nb mem).write (256 * nb) (BitVec.ofNat 8 (min Config.subMax (P - 255 * nb)))

/-- FLUSH (R147): the partial byte, the length bytes, the terminator, FLEN. -/
def flushOut (s : State) : State :=
  let s1 := flushPartial s
  let P := s1.pk.oplen.toNat
  let NB := ceilDiv P Config.subMax
  (s1.setOut ((writeLengths P NB s1.out).write (P + NB) 0)).setPk
    { s1.pk with flen := narrow 32 (P + NB + 1) }

/-! ### Deframer -/

/-- The bytes of `IN[0 .. ILEN-1]` from the deframing cursor on. -/
def bytesLeft (s : State) : List Byte :=
  (List.range (s.lat.ilen.toNat - s.unp.fpos.toNat)).map fun j => s.inp.read (s.unp.fpos.toNat + j)

/-- SUBBLOCK (R108, R150): its payload is appended to PAY, and the cursor passes it. -/
def takeSubblock (payload : List Byte) (s : State) : State :=
  (s.setPay (s.pay.writeList s.unp.plen.toNat payload)).setUnp
    { s.unp with
      plen := narrow 32 (s.unp.plen.toNat + payload.length)
      fpos := narrow 32 (s.unp.fpos.toNat + 1 + payload.length) }

/-- TERM (R108, R150): the cursor passes it, and ICONS is the framed length (R152). -/
def takeTerm (s : State) : State :=
  s.setUnp { s.unp with fpos := narrow 32 (s.unp.fpos.toNat + 1), icons := narrow 32 (s.unp.fpos.toNat + 1) }

/-- DEFRAME's loop (R150). Each turn passes at least one byte of IN, so ILEN + 1 turns always reach the end; with
none left IN has ended too. -/
def deframeLoop : Nat → State → Except Cause State
  | 0, _ => .error .frameNoTerminator
  | n + 1, s =>
    match decodeFrame (bytesLeft s) with
    | .ok (.subblock payload) => deframeLoop n (takeSubblock payload s)
    | .ok .term => .ok (takeTerm s)
    | .error .overrun => .error .frameOverrun
    | .error _ => .error .frameNoTerminator

/-- DEFRAME up to a raise (R150, R154). -/
def deframe (s : State) : Except Cause State :=
  match deframeLoop (s.lat.ilen.toNat + 1) (s.setUnp { s.unp with fpos := 0, plen := 0 }) with
  | .ok t => .ok (t.setUnp { t.unp with bitpos := 0 })
  | .error x => .error x

/-! ### Unpacker -/

/-- `payloadBit(b)` (R101). -/
def payloadBit (pay : Memory 8) (b : Nat) : Nat :=
  bitAt (pay.read (b / 8)).toNat (b % 8)

/-- `readCode(width)` (R156): the code and the state after, or none where it raises PREMATURE_END (R157). -/
def readCode (width : Nat) (s : State) : Option (Code × State) :=
  if 8 * s.unp.plen.toNat < s.unp.bitpos.toNat + width then none
  else
    some (narrow 12 (sumBits (fun i => payloadBit s.pay (s.unp.bitpos.toNat + i)) width),
      s.setUnp { s.unp with bitpos := narrow 35 (s.unp.bitpos.toNat + width) })

/-! ### Meanings -/

/-- PACK_INIT (R141). -/
def execPackInit (s : State) : Host.Outcome State Fault Refusal := .next (packInit s)

/-- PUTBYTE (R142). -/
def execPutbyte (b : Byte) (s : State) : Host.Outcome State Fault Refusal := .next (putByte b s)

/-- WRITECODE (R146). -/
def execWritecode (code : Code) (width : Nat) (s : State) : Host.Outcome State Fault Refusal :=
  .next (writeCode code width s)

/-- FLUSH (R147). -/
def execFlush (s : State) : Host.Outcome State Fault Refusal := .next (flushOut s)

/-- SUBBLOCK as DEFRAME meets it (R108, R150). -/
def execSubblock (payload : List Byte) (s : State) : Host.Outcome State Fault Refusal :=
  .next (takeSubblock payload s)

/-- TERM as DEFRAME meets it (R108, R150). -/
def execTerm (s : State) : Host.Outcome State Fault Refusal := .next (takeTerm s)

/-- DEFRAME (R150, R151): its raises abort. -/
def execDeframe (s : State) : Host.Outcome State Fault Refusal :=
  match deframe s with
  | .ok t => .next t
  | .error x => .next (abortState x s)

/-- READCODE run on its own (R156, R157): the code it returns is left in `ret`. -/
def execReadcode (width : Nat) (s : State) : Host.Outcome State Fault Refusal :=
  match readCode width s with
  | some (c, t) => .next (t.setRet c.toNat)
  | none => .next (abortState .prematureEnd s)

end Sys2Proof.Machine
end

