-- ==== Sys2Proof/Machine/Decoder.lean ====
section
/-! DEFINITION. The LZW decoder (41_lzw_decoder.md): one meaning per code class, and the operations they share. -/

namespace Sys2Proof.Machine

/-- DECODER_INIT (R180). -/
def decoderInit (s : State) : State :=
  s.setDec { s.dec with d := s.lat.firstFree.setWidth 13, prevValid := false, dstate := .init, ocount := 0 }

/-- RESOLVE's loop (R196) in at most `n` turns: the suffixes pushed on STK, then the literal the chain ends at.
None where the chain does not end at a literal, which R43's invariant excludes. -/
def chain (s : State) : (n k : Nat) → Option (List Byte × Byte)
  | 0, _ => none
  | n + 1, k =>
    if s.lat.firstFree.toNat ≤ k then
      match chain s n (s.prefixMem.read k).toNat with
      | some (suffixes, first) => some (s.suffixMem.read k :: suffixes, first)
      | none => none
    else if k < s.lat.clear.toNat then some ([], narrow 8 k)
    else none

/-- A sequence `seq(k)`, its first symbol apart (it is never empty). -/
structure Seq where
  first : Byte
  rest  : List Byte
  deriving DecidableEq, Repr

/-- The symbols of a sequence, in order. -/
def Seq.syms (q : Seq) : List Byte := q.first :: q.rest

/-- RESOLVE(k) (R196): STK holds the chain from its position 0, and the answer is STK read backwards. -/
def resolve (k : Code) (s : State) : Option (Seq × State) :=
  match chain s Config.dictCap k.toNat with
  | some (suffixes, first) =>
    some (⟨first, suffixes.reverse⟩, s.setStk (s.stk.writeList 0 (suffixes ++ [first])))
  | none => none

/-- One symbol of OUTPUT (R188): stored below `N`, counted always. -/
def outputSym (s : State) (sym : Byte) : State :=
  let s1 := if s.dec.ocount < s.lat.n then s.setOut (s.out.write (addrOf s.lat s.dec.ocount) sym) else s
  s1.setDec { s1.dec with ocount := s1.dec.ocount + 1 }

/-- OUTPUT(S) (R188). -/
def outputSyms (syms : List Byte) (s : State) : State :=
  syms.foldl outputSym s

/-- INSERT(S) after the data code `c`, with `s0 = S[0]` (R187). -/
def insertEntry (c : Code) (s0 : Byte) (s : State) : State :=
  let s1 :=
    if s.dec.prevValid ∧ s.dec.d.toNat < Config.dictCap then
      ((s.setPrefix (s.prefixMem.write s.dec.d.toNat s.dec.prev)).setSuffix
        (s.suffixMem.write s.dec.d.toNat s0)).setDec { s.dec with d := s.dec.d + 1 }
    else s
  s1.setDec { s1.dec with prev := c, prevValid := true, dstate := .reading }

/-- The end every data code shares (R183 to R185): OUTPUT(S), then INSERT(S). -/
def emitSeq (c : Code) (q : Seq) (s : State) : State :=
  insertEntry c q.first (outputSyms q.syms s)

/-- `P ++ [P[0]]` (R185). -/
def Seq.deferred (p : Seq) : Seq := ⟨p.first, p.rest ++ [p.first]⟩

/-! ### Meanings -/

/-- DECODER_INIT (R180). -/
def execDecoderInit (s : State) : Host.Outcome State Fault Refusal := .next (decoderInit s)

/-- CLEAR (R181). -/
def execClear (s : State) : Host.Outcome State Fault Refusal :=
  .next (s.setDec { s.dec with d := s.lat.firstFree.setWidth 13, prevValid := false, dstate := .cleared })

/-- END (R182): the decoder stops; the sequencer then enters phase FINISH. -/
def execEnd (s : State) : Host.Outcome State Fault Refusal :=
  .next (s.setDec { s.dec with dstate := .done })

/-- LIT (R183): `S = [c]`. -/
def execLit (c : Byte) (s : State) : Host.Outcome State Fault Refusal :=
  .next (emitSeq (c.setWidth 12) ⟨c, []⟩ s)

/-- DICT (R184): `S = seq(c)`. -/
def execDict (c : Code) (s : State) : Host.Outcome State Fault Refusal :=
  match resolve c s with
  | some (q, t) => .next (emitSeq c q t)
  | none => .fault .brokenDictionary

/-- DEFER (R185): `S = seq(PREV) ++ [seq(PREV)[0]]`, and the code is `D`. -/
def execDefer (s : State) : Host.Outcome State Fault Refusal :=
  match resolve s.dec.prev s with
  | some (p, t) => .next (emitSeq (narrow 12 s.dec.d.toNat) p.deferred t)
  | none => .fault .brokenDictionary

/-- BADCODE (R186). -/
def execBadcode (c : Code) (s : State) : Host.Outcome State Fault Refusal :=
  .next (abortState (if s.dec.d.toNat < c.toNat then .badCode else .deferNoPrev) s)

/-- INSERT (R187). -/
def execInsert (c : Code) (s0 : Byte) (s : State) : Host.Outcome State Fault Refusal :=
  .next (insertEntry c s0 s)

/-- OUTPUT (R188). -/
def execOutput (syms : List Byte) (s : State) : Host.Outcome State Fault Refusal :=
  .next (outputSyms syms s)

/-- RESOLVE run on its own (R196): the sequence is left in STK. -/
def execResolve (k : Code) (s : State) : Host.Outcome State Fault Refusal :=
  match resolve k s with
  | some (_, t) => .next t
  | none => .fault .brokenDictionary

/-- The class rule of a code (R181 to R186). -/
def execClass (k : CodeClass) (s : State) : Host.Outcome State Fault Refusal :=
  match k with
  | .clear => execClear s
  | .endCode => execEnd s
  | .lit c => execLit c s
  | .dict c => execDict c s
  | .defer => execDefer s
  | .badcode c => execBadcode c s

/-- DECSTEP (R189): read a code of width `Wd(D)`, then apply the rule of its class. -/
def execDecstep (s : State) : Host.Outcome State Fault Refusal :=
  match readCode s.decWidth s with
  | some (c, t) => execClass (classify t.decCtx c) t
  | none => .next (abortState .prematureEnd s)

end Sys2Proof.Machine
end

