-- ==== Sys2Proof/Machine/Encoder.lean ====
section
/-! DEFINITION. The LZW encoder (42_lzw_encoder.md): no rule of it raises. -/

namespace Sys2Proof.Machine

/-- Both sizes back to FIRST_FREE with FIRSTD set (R232, R242). -/
def resetSizes (s : State) : State :=
  s.setEnc { s.enc with esize := s.lat.firstFree.setWidth 13, dsize := s.lat.firstFree.setWidth 13, firstd := true }

/-- ENCODER_INIT (R232). -/
def encoderInit (s : State) : State := packInit (resetSizes s)

/-- EMIT (R236): `writeCode(c, Wd(DSIZE))`. -/
def emitCode (c : Code) (s : State) : State := writeCode c s.encWidth s

/-- DATA_SENT (R233). -/
def dataSent (s : State) : State :=
  s.setEnc { s.enc with
    dsize := if s.enc.firstd = false ∧ s.enc.dsize.toNat < Config.dictCap then s.enc.dsize + 1 else s.enc.dsize
    firstd := false }

/-- A data code: emitted, then DATA_SENT (R233, R239). -/
def sendData (c : Code) (s : State) : State := dataSent (emitCode c s)

/-- The reset CLEAR (R242). -/
def clearFull (s : State) : State := resetSizes (emitCode (s.lat.clear.setWidth 12) s)

/-- The lookup of R51: the entry `k` with `FIRST_FREE <= k < ESIZE`, PREFIX[k] = CUR and SUFFIX[k] = c (the lowest,
in a state where R247's uniqueness does not hold: log 9). -/
def lookup (s : State) (c : Byte) : Option Nat :=
  (List.range' s.lat.firstFree.toNat (s.enc.esize.toNat - s.lat.firstFree.toNat)).find? fun k =>
    s.prefixMem.read k == s.enc.cur && s.suffixMem.read k == c

/-- INSERT_E(p, c) (R240), with the reset it may lead to. -/
def insertE (p : Code) (c : Byte) (s : State) : State :=
  if s.enc.esize.toNat < Config.dictCap then
    let s1 := ((s.setPrefix (s.prefixMem.write s.enc.esize.toNat p)).setSuffix
      (s.suffixMem.write s.enc.esize.toNat c)).setEnc { s.enc with esize := s.enc.esize + 1 }
    if s1.enc.esize.toNat = Config.dictCap ∧ s1.lat.nr = false then clearFull s1 else s1
  else s

/-- `CUR <- c` (R235, R238, R239). -/
def setCur (c : Code) (s : State) : State := s.setEnc { s.enc with cur := c }

/-- MISS (R239). -/
def miss (c : Byte) (s : State) : State :=
  setCur (c.setWidth 12) (insertE s.enc.cur c (sendData s.enc.cur s))

/-- MATCH_START (R235). -/
def matchStart (s : State) : State :=
  s.setEnc { s.enc with cur := (s.inp.read 0).setWidth 12, ipos := 1 }

/-- `IPOS <- IPOS + 1` (R237). -/
def nextIndex (s : State) : State := s.setEnc { s.enc with ipos := narrow 32 (s.enc.ipos.toNat + 1) }

/-- FINAL (R244). -/
def finalMatch (s : State) : State := sendData s.enc.cur s

/-- ENC_STEP (R237). -/
def encStep (s : State) : State :=
  if s.enc.ipos.toNat < s.lat.n then
    let c := s.inp.read s.enc.ipos.toNat
    match lookup s c with
    | some k => nextIndex (setCur (narrow 12 k) s)
    | none => nextIndex (miss c s)
  else finalMatch s

/-! ### Meanings -/

/-- ENCODER_INIT (R232). -/
def execEncoderInit (s : State) : Host.Outcome State Fault Refusal := .next (encoderInit s)

/-- E_CLEAR_START (R234). -/
def execEClearStart (s : State) : Host.Outcome State Fault Refusal :=
  .next (emitCode (s.lat.clear.setWidth 12) s)

/-- E_DATA (R107): emitted by MISS and FINAL, DATA_SENT after it (R233). -/
def execEData (c : Code) (s : State) : Host.Outcome State Fault Refusal := .next (sendData c s)

/-- E_CLEAR_FULL (R242). -/
def execEClearFull (s : State) : Host.Outcome State Fault Refusal := .next (clearFull s)

/-- E_END (R246): the sequencer then enters phase FLUSH. -/
def execEEnd (s : State) : Host.Outcome State Fault Refusal :=
  .next (emitCode (s.lat.endCode.setWidth 12) s)

/-- DATA_SENT (R233). -/
def execDataSent (s : State) : Host.Outcome State Fault Refusal := .next (dataSent s)

/-- EMIT (R236). -/
def execEmit (c : Code) (s : State) : Host.Outcome State Fault Refusal := .next (emitCode c s)

/-- MATCH_START (R235). -/
def execMatchStart (s : State) : Host.Outcome State Fault Refusal := .next (matchStart s)

/-- ENC_STEP (R237). -/
def execEncStep (s : State) : Host.Outcome State Fault Refusal := .next (encStep s)

/-- EXTEND (R238). -/
def execExtend (k : Code) (s : State) : Host.Outcome State Fault Refusal := .next (setCur k s)

/-- MISS (R239). -/
def execMiss (c : Byte) (s : State) : Host.Outcome State Fault Refusal := .next (miss c s)

/-- INSERT_E (R240). -/
def execInsertE (p : Code) (c : Byte) (s : State) : Host.Outcome State Fault Refusal := .next (insertE p c s)

/-- FINAL (R244). -/
def execFinal (s : State) : Host.Outcome State Fault Refusal := .next (finalMatch s)

end Sys2Proof.Machine
end

