-- ==== Sys2Proof/Machine/Dispatch.lean ====
section
/-! DEFINITION. The meaning of each instruction. -/

namespace Sys2Proof.Machine

def exec (i : Instr) (s : State) : Host.Outcome State Fault Refusal :=
  match i with
  | .decode => Sys2Proof.Machine.execDecode s
  | .encode => Sys2Proof.Machine.execEncode s
  | .cmdNop low => Sys2Proof.Machine.execCmdNop low s
  | .cmdReserved low => Sys2Proof.Machine.execCmdReserved low s
  | .clear => Sys2Proof.Machine.execClear s
  | .endCode => Sys2Proof.Machine.execEnd s
  | .lit c => Sys2Proof.Machine.execLit c s
  | .dict c => Sys2Proof.Machine.execDict c s
  | .defer => Sys2Proof.Machine.execDefer s
  | .badcode c => Sys2Proof.Machine.execBadcode c s
  | .eClearStart => Sys2Proof.Machine.execEClearStart s
  | .eData c => Sys2Proof.Machine.execEData c s
  | .eClearFull => Sys2Proof.Machine.execEClearFull s
  | .eEnd => Sys2Proof.Machine.execEEnd s
  | .subblock payload => Sys2Proof.Machine.execSubblock payload s
  | .term => Sys2Proof.Machine.execTerm s
  | .packInit => Sys2Proof.Machine.execPackInit s
  | .putbyte b => Sys2Proof.Machine.execPutbyte b s
  | .writecode code width => Sys2Proof.Machine.execWritecode code width s
  | .flush => Sys2Proof.Machine.execFlush s
  | .deframe => Sys2Proof.Machine.execDeframe s
  | .readcode width => Sys2Proof.Machine.execReadcode width s
  | .decoderInit => Sys2Proof.Machine.execDecoderInit s
  | .insert c s0 => Sys2Proof.Machine.execInsert c s0 s
  | .output syms => Sys2Proof.Machine.execOutput syms s
  | .decstep => Sys2Proof.Machine.execDecstep s
  | .resolve k => Sys2Proof.Machine.execResolve k s
  | .encoderInit => Sys2Proof.Machine.execEncoderInit s
  | .dataSent => Sys2Proof.Machine.execDataSent s
  | .emit c => Sys2Proof.Machine.execEmit c s
  | .matchStart => Sys2Proof.Machine.execMatchStart s
  | .encStep => Sys2Proof.Machine.execEncStep s
  | .extend k => Sys2Proof.Machine.execExtend k s
  | .miss c => Sys2Proof.Machine.execMiss c s
  | .insertE p c => Sys2Proof.Machine.execInsertE p c s
  | .final => Sys2Proof.Machine.execFinal s
  | .rowmap r => Sys2Proof.Machine.execRowmap r s
  | .addr p => Sys2Proof.Machine.execAddr p s
  | .finishDecode => Sys2Proof.Machine.execFinishDecode s
  | .finishEncode => Sys2Proof.Machine.execFinishEncode s
  | .abort cause => Sys2Proof.Machine.execAbort cause s
  | .reset => Sys2Proof.Machine.execReset s

end Sys2Proof.Machine
end

