-- ==== Sys2Proof/Machine/Sequencer.lean ====
section
/-! DEFINITION. The transaction sequencer: which instruction the block runs next in each phase (R41, R306, R314).
A transaction spreads over block steps, one per code read and one per input index consumed (R18 (b), R390, log 7). -/

namespace Sys2Proof.Machine

/-- The steps that open phase ENCODE (R245): ENCODER_INIT, E_CLEAR_START, MATCH_START. -/
def openEncode (s : State) : Host.Outcome State Fault Refusal :=
  andThen (exec .encoderInit s) fun s1 => andThen (exec .eClearStart s1) fun s2 => exec .matchStart s2

/-- Phase CHECK of the running operation; a passed ENCODE opens phase ENCODE. -/
def checkPhase (s : State) : Host.Outcome State Fault Refusal :=
  match s.lat.op with
  | .decode => checkDecode s
  | .encode => andThen (checkEncode s) fun t => if t.phase = .encode then openEncode t else .next t

/-- Phase DEFRAME (R306): DEFRAME, and unless it aborted, phase LZWDEC begins with DECODER_INIT. -/
def deframePhase (s : State) : Host.Outcome State Fault Refusal :=
  andThen (exec .deframe s) fun t =>
    if t.phase = .deframe then exec .decoderInit (t.setPhase .lzwdec) else .next t

/-- Phase LZWDEC (R306): `while DSTATE != DONE: DECSTEP`. -/
def lzwdecPhase (s : State) : Host.Outcome State Fault Refusal :=
  if s.dec.dstate = .done then .next (s.setPhase .finish) else exec .decstep s

/-- Phase ENCODE (R237, R244, R246): ENC_STEP for each index; with none left, ENC_STEP applies FINAL, E_END
follows, and phase FLUSH begins. -/
def encodePhase (s : State) : Host.Outcome State Fault Refusal :=
  if s.enc.ipos.toNat < s.lat.n then exec .encStep s
  else andThen (exec .encStep s) fun s1 => andThen (exec .eEnd s1) fun s2 => .next (s2.setPhase .flush)

/-- Phase FLUSH (R314). -/
def flushPhase (s : State) : Host.Outcome State Fault Refusal :=
  andThen (exec .flush s) fun t => .next (t.setPhase .finish)

/-- Phase FINISH (R307, R316). -/
def finishPhase (s : State) : Host.Outcome State Fault Refusal :=
  match s.lat.op with
  | .decode => exec .finishDecode s
  | .encode => exec .finishEncode s

/-- One step of the block by itself; in IDLE it waits for a START (R372). -/
def blockStep (s : State) : Host.Outcome State Fault Refusal :=
  match s.phase with
  | .idle => .next s
  | .check => checkPhase s
  | .deframe => deframePhase s
  | .lzwdec => lzwdecPhase s
  | .encode => encodePhase s
  | .flush => flushPhase s
  | .finish => finishPhase s

/-- At most `n` steps of the block with no host access between them, stopping in IDLE: the transaction level of
R18 (a) obtained by running the step level to completion. -/
def runBlock : Nat → State → Host.Outcome State Fault Refusal
  | 0, s => .next s
  | n + 1, s => if s.phase = .idle then .next s else andThen (blockStep s) (runBlock n)

end Sys2Proof.Machine
end

