-- ==== Sys2Proof/Machine/HostPort.lean ====
section
/-! DEFINITION. The host's accesses to the registers and buffers (R31 to R37, R57, R320, R380 to R383). -/

namespace Sys2Proof.Machine

/-- DIAG (R38): while a transaction runs, each step of the block may write any records to the sink (log 15). -/
def writeDiag (s : State) : State :=
  if s.phase = .idle then s
  else s.setDiag ⟨s.diag.records ++ Config.diagBurst s.diag.turn, s.diag.turn + 1⟩

/-- The block's turn: its step, with the records that leave over DIAG. -/
def blockTurn (s : State) : Host.Outcome State Fault Refusal :=
  blockStep (writeDiag s)

/-- A read of `w` bits the spec gives no value returns a fresh free value of them (log 1). -/
def readFree (w : Nat) (s : State) : State :=
  (s.setRdata ((BitVec.ofNat w (Config.freeNat s.free 0)).setWidth 32)).setFree (s.free + 1)

/-- A read-back of a host register of `w` readable bits, which holds a value only once written (R57). -/
def readWritable (written : Bool) (w : Nat) (v : Word) (s : State) : State :=
  if written then s.setRdata v else readFree w s

/-- A host write of one byte of IN (R70): not into the running transaction's input (R381 (a)), and not beyond
IN_CAP (log 8). -/
def hostWriteIn (a : Nat) (b : Byte) (s : State) : Host.Outcome State Fault Refusal :=
  if s.busy ∧ a < s.lat.ilen.toNat then .refused .hostWroteInWhileBusy
  else if s.params.inCap ≤ a then .fault .noSuchInAddress
  else .next (s.setInp (s.inp.write a b))

/-- A host read of one byte of OUT (R82): a result byte after a success (R72), a free value elsewhere (R335, R72);
not while BUSY (R381 (b), log 8). OUT_LEN is 0 unless a transaction succeeded (R36). -/
def hostReadOut (a : Nat) (s : State) : Host.Outcome State Fault Refusal :=
  if s.busy then .refused .hostReadOutWhileBusy
  else if s.params.outCap ≤ a then .fault .noSuchOutAddress
  else if a < s.regs.outLen.toNat then .next (s.setRdata ((s.out.read a).setWidth 32))
  else .next (readFree 8 s)

/-- One access of the host (log 7). A CMD byte is the block's instruction fetch. A write to a read-only register
writes nothing (log 21). CFG[7:6] read 0 whether or not CFG has been written (R32), so 6 bits of it are readable. -/
def hostAccess (x : HostAccess) (s : State) : Host.Outcome State Fault Refusal :=
  match x with
  | .writeCmd v => exec (decodeCmd v) s
  | .writeCfg v => .next (s.setRegs { s.regs with cfg := cfgStored v, cfgWritten := true })
  | .writeWidth v => .next (s.setRegs { s.regs with width := v, widthWritten := true })
  | .writeHeight v => .next (s.setRegs { s.regs with height := v, heightWritten := true })
  | .writeInLen v => .next (s.setRegs { s.regs with inLen := v, inLenWritten := true })
  | .writeStatus _ => .next s
  | .writeOutLen _ => .next s
  | .writeInConsumed _ => .next s
  | .writeIn a b => hostWriteIn a b s
  | .writeOut _ _ => .refused .hostWroteOut
  | .readCmd => .refused .readOfCmd
  | .readCfg => .next (readWritable s.regs.cfgWritten 6 (s.regs.cfg.setWidth 32) s)
  | .readWidth => .next (readWritable s.regs.widthWritten 32 s.regs.width s)
  | .readHeight => .next (readWritable s.regs.heightWritten 32 s.regs.height s)
  | .readInLen => .next (readWritable s.regs.inLenWritten 32 s.regs.inLen s)
  | .readStatus => .next (s.setRdata (s.regs.status.setWidth 32))
  | .readOutLen => .next (s.setRdata s.regs.outLen)
  | .readInConsumed => .next (s.setRdata s.regs.inConsumed)
  | .readOut a => hostReadOut a s
  | .reset => exec .reset s
  | .idle => blockTurn s

/-- One step of the machine: the host's next access, or with none pending a step of the block. -/
def machineStep (s : State) : Host.Outcome State Fault Refusal :=
  match s.host with
  | [] => blockTurn s
  | x :: rest => hostAccess x (s.setHost rest)

/-- The host's registers as R374 requires them before a START: written since reset, each with the value it holds. -/
def bootRegs (r : HostRegs) : HostRegs :=
  { r with cfgWritten := true, widthWritten := true, heightWritten := true, inLenWritten := true }

end Sys2Proof.Machine
end

