-- ==== Sys2Proof/Machine/Step.lean ====
section
/-! DEFINITION. One step, and where a program's next command is put. -/

namespace Sys2Proof.Machine

/-- One step of the machine. -/
def step (s : State) : Host.Outcome State Fault Refusal := machineStep s

/-- The host's next access is the CMD write of byte `w` (log 12), the four registers a START needs counting as
written (R374), so that the very next step runs that command. -/
def State.withFetchWord (s : State) (nbits w : Nat) : State :=
  { s with
    host := .writeCmd (BitVec.ofNat 8 (w % 2 ^ nbits)) :: s.host
    regs := bootRegs s.regs }

end Sys2Proof.Machine
end

