-- ==== Sys2Proof/Machine/Transaction.lean ====
section
/-! DEFINITION. The transaction level (R18 (a), R318): a whole DECODE and a whole ENCODE as functions of the
latched inputs, over sequences. The dictionary is held as the sequences themselves (R43: a model may hold `seq`
directly), so nothing here shares the cursors, the PREFIX and SUFFIX columns or the buffers of the step level. -/

namespace Sys2Proof.Machine

/-- The outcome of a transaction (R318): Ok, Err, or no result where the pseudocode refuses. -/
inductive TxResult (α : Type)
  | ok (result : α)
  | err (cause : Cause)
  | refused
  deriving DecidableEq, Repr

/-! ### Framing and bits -/

/-- The payload and the framed length of a byte sequence (R150 to R152), `n` bounding the sub-blocks. -/
def txDeframe : (n : Nat) → (bytes payload : List Byte) → (consumed : Nat) → Except Cause (List Byte × Nat)
  | 0, _, _, _ => .error .frameNoTerminator
  | _ + 1, [], _, _ => .error .frameNoTerminator
  | n + 1, L :: rest, payload, consumed =>
    if L = 0#8 then .ok (payload, consumed + 1)
    else if rest.length < L.toNat then .error .frameOverrun
    else txDeframe n (rest.drop L.toNat) (payload ++ rest.take L.toNat) (consumed + 1 + L.toNat)

/-- The payload bits in order (R74). -/
def bitsOfBytes (bytes : List Byte) : List Bool :=
  bytes.flatMap fun b => (List.range 8).map b.getLsbD

/-- The bytes that hold bits in order, the last one's unused high bits 0 (R74, R147). -/
def bytesOfBits (bits : List Bool) : List Byte :=
  (List.range (ceilDiv bits.length 8)).map fun i =>
    BitVec.ofNat 8 (sumBits (fun j => (bits.getD (8 * i + j) false).toNat) 8)

/-- Framing (R108, R147): sub-blocks of 255 payload bytes, the last one shorter, then the terminator. -/
def txFrame (payload : List Byte) : List Byte :=
  ((List.range (ceilDiv payload.length 255)).flatMap fun i =>
    BitVec.ofNat 8 (min 255 (payload.length - 255 * i)) :: (payload.drop (255 * i)).take 255) ++ [0#8]

/-! ### DECODE -/

/-- The sequence a code stands for (R105, R183 to R185), `table` holding the dynamic entries in code order. -/
def txSeq (m : Nat) (table : List (List Byte)) (prev : Option (List Byte)) (c : Nat) : Option (List Byte) :=
  if c < 2 ^ m then some [BitVec.ofNat 8 c]
  else if c < 2 ^ m + 2 + table.length then table[c - (2 ^ m + 2)]?
  else if c = 2 ^ m + 2 + table.length ∧ 2 ^ m + 2 + table.length < 4096 then prev.map fun p => p ++ p.take 1
  else none

/-- The table after a data code that stood for `S` (R187). -/
def txInsert (m : Nat) (table : List (List Byte)) (prev : Option (List Byte)) (S : List Byte) : List (List Byte) :=
  match prev with
  | some p => if 2 ^ m + 2 + table.length < 4096 then table ++ [p ++ S.take 1] else table
  | none => table

/-- The indices a code stream emits (R189), `n` bounding the codes read. -/
def txDecodeCodes (m : Nat) : (n : Nat) → (bits : List Bool) → (table : List (List Byte)) →
    (prev : Option (List Byte)) → (emitted : List Byte) → Except Cause (List Byte)
  | 0, _, _, _, _ => .error .prematureEnd
  | n + 1, bits, table, prev, emitted =>
    let D := 2 ^ m + 2 + table.length
    let w := Wd D
    if bits.length < w then .error .prematureEnd
    else
      let c := sumBits (fun i => (bits.getD i false).toNat) w
      if c = 2 ^ m then txDecodeCodes m n (bits.drop w) [] none emitted
      else if c = 2 ^ m + 1 then .ok emitted
      else
        match txSeq m table prev c with
        | some S => txDecodeCodes m n (bits.drop w) (txInsert m table prev S) (some S) (emitted ++ S)
        | none => .error (if D < c then .badCode else .deferNoPrev)

/-- The raster that indices in stream order make (R72, R284). -/
def txPlace (l : Latched) (indices : List Byte) : List Byte :=
  (List.range indices.length).foldl (fun raster p => raster.set (addrOf l p) (indices.getD p 0))
    (List.replicate indices.length 0)

/-- DECODE (R306, R318) of `m`, width, height and interlacing as latched, on the bytes of IN, in a block of capacities
`caps`. -/
def txDecode (caps : Params) (l : Latched) (bytes : List Byte) : TxResult (List Byte × Nat) :=
  if mcsLegal l.m.toNat = false then .err .mcsRange
  else if l.wid.toInt ≤ 0 ∨ l.hgt.toInt ≤ 0 then .err .dimNonpositive
  else if overCapacity caps (l.wid.toNat * l.hgt.toNat) bytes.length (l.wid.toNat * l.hgt.toNat) then .refused
  else
    match txDeframe (bytes.length + 1) bytes [] 0 with
    | .error x => .err x
    | .ok (payload, consumed) =>
      match txDecodeCodes l.m.toNat (8 * payload.length + 1) (bitsOfBytes payload) [] none [] with
      | .error x => .err x
      | .ok indices =>
        if indices.length ≠ l.wid.toNat * l.hgt.toNat then .err .decodeCount
        else .ok (txPlace l indices, consumed)

/-! ### ENCODE -/

/-- The code of a sequence in the dictionary (R231): a literal's is its symbol, an entry's its place. -/
def txCode (m : Nat) (table : List (List Byte)) : List Byte → Nat
  | [b] => b.toNat
  | S => 2 ^ m + 2 + table.findIdx (· == S)

/-- DSIZE after a data code (R233). -/
def txDataSent (dsize : Nat) (firstd : Bool) : Nat :=
  if firstd = false ∧ dsize < 4096 then dsize + 1 else dsize

/-- The codes, each with its width, from the next index on (R237 to R246): `W` is the current match, `dsize` the
reader's dictionary size, `firstd` whether the next data code is the first of its span. -/
def txCodes (m : Nat) (nr : Bool) : (indices : List Byte) → (table : List (List Byte)) → (W : List Byte) →
    (dsize : Nat) → (firstd : Bool) → List (Nat × Nat)
  | [], table, W, dsize, firstd =>
    [(txCode m table W, Wd dsize), (2 ^ m + 1, Wd (txDataSent dsize firstd))]
  | c :: rest, table, W, dsize, firstd =>
    if (W ++ [c]) ∈ table then txCodes m nr rest table (W ++ [c]) dsize firstd
    else
      let sent := txDataSent dsize firstd
      if 2 ^ m + 2 + table.length < 4096 then
        if 2 ^ m + 2 + table.length + 1 = 4096 ∧ nr = false then
          (txCode m table W, Wd dsize) :: (2 ^ m, Wd sent) :: txCodes m nr rest [] [c] (2 ^ m + 2) true
        else (txCode m table W, Wd dsize) :: txCodes m nr rest (table ++ [W ++ [c]]) [c] sent false
      else (txCode m table W, Wd dsize) :: txCodes m nr rest table [c] sent false

/-- The code stream of an index sequence (R245); an encode always has an index. -/
def txStream (m : Nat) (nr : Bool) : List Byte → List (Nat × Nat)
  | [] => []
  | c :: rest => (2 ^ m, Wd (2 ^ m + 2)) :: txCodes m nr rest [] [c] (2 ^ m + 2) true

/-- ENCODE (R314, R318) of `m`, width, height and no-reset as latched, on the bytes of IN, in a block of capacities
`caps`. -/
def txEncode (caps : Params) (l : Latched) (bytes : List Byte) : TxResult (List Byte) :=
  if mcsLegal l.m.toNat = false then .err .mcsRangeEnc
  else if l.wid.toInt ≤ 0 ∨ l.hgt.toInt ≤ 0 then .err .dimNonpositive
  else if bytes.length ≠ l.wid.toNat * l.hgt.toNat then .err .encodeLength
  else if overCapacity caps bytes.length bytes.length (framedBound bytes.length) then .refused
  else if bytes.any (fun b => decide (2 ^ l.m.toNat ≤ b.toNat)) then .err .indexRange
  else .ok (txFrame (bytesOfBits ((txStream l.m.toNat l.nr bytes).flatMap fun p => codeBits p.1 p.2)))

end Sys2Proof.Machine
end

