-- ==== Sys2Proof/Safety.lean ====
section
/-! DEFINITION. What counts as a safe run: the invariants the spec states of the block's state, and the views of
it the statements speak of (the packed bit stream, the sequence a code spells). -/

namespace Sys2Proof.Machine

/-! ### Views -/

/-- The number of payload bits the packer has taken (R143). -/
def packedLen (s : State) : Nat := 8 * s.pk.oplen.toNat + s.pk.nacc.toNat

/-- Payload bit `j` of the packer's stream (R74, R143): in OUT once its byte is complete, in ACC before. -/
def packedBit (s : State) (j : Nat) : Bool :=
  if j / 8 < s.pk.oplen.toNat then (s.out.read (payloadAddr (j / 8))).getLsbD (j % 8)
  else s.pk.acc.getLsbD (j % 8)

/-- ACC bits at positions `>= NACC` are 0 (R49). -/
def accClean (s : State) : Prop := s.pk.acc.toNat < 2 ^ s.pk.nacc.toNat

/-- From `s` to `t` the packer took the low `w` bits of `c`, least significant first, and nothing else (R146). -/
structure Appends (s t : State) (c w : Nat) : Prop where
  len       : packedLen t = packedLen s + w
  clean     : accClean t
  kept      : ∀ j, j < packedLen s → packedBit t j = packedBit s j
  added     : ∀ i, i < w → packedBit t (packedLen s + i) = c.testBit i
  elsewhere : ∀ a, (∀ i, s.pk.oplen.toNat ≤ i → i < t.pk.oplen.toNat → a ≠ payloadAddr i) →
    t.out.read a = s.out.read a
  flen      : t.pk.flen = s.pk.flen

/-- The packer has room to count `w` more bits in OPLEN. -/
def packRoom (s : State) (w : Nat) : Prop := packedLen s + w < 8 * 2 ^ 32

/-- `seq(k)` of a dictionary of `size` codes (R43). -/
inductive Spells (m size : Nat) (pre : Memory 12) (suf : Memory 8) : Nat → List Byte → Prop
  | literal (k : Nat) : k < 2 ^ m → Spells m size pre suf k [BitVec.ofNat 8 k]
  | entry (k : Nat) (P : List Byte) : 2 ^ m + 2 ≤ k → k < size →
      Spells m size pre suf (pre.read k).toNat P → Spells m size pre suf k (P ++ [suf.read k])

/-- `k` has a sequence in a dictionary of `size` codes: assigned, and neither CLEAR nor END (R43). -/
def spellable (m size k : Nat) : Prop := k < size ∧ k ≠ 2 ^ m ∧ k ≠ 2 ^ m + 1

/-- The dictionary invariant of R43 and R44, with symbols below `2^m` (R191). -/
structure DictOk (m size : Nat) (pre : Memory 12) (suf : Memory 8) : Prop where
  lower   : 2 ^ m + 2 ≤ size
  upper   : size ≤ 4096
  entries : ∀ k, 2 ^ m + 2 ≤ k → k < size →
    spellable m k (pre.read k).toNat ∧ (suf.read k).toNat < 2 ^ m

/-- The bytes of `IN[0 .. ILEN-1]`. -/
def inputBytes (s : State) : List Byte :=
  (List.range s.lat.ilen.toNat).map fun i => s.inp.read i

/-- The rows of a frame of height `H` in the order they arrive (R281): pass after pass, rows increasing. -/
def passOrder (H : Nat) : List Nat :=
  Config.passes.flatMap fun p => (List.range H).filter fun y => decide (p.2 ≤ y ∧ (y - p.2) % p.1 = 0)

/-- What the latch of R42 holds for a legal `m`: CLEAR, END, FIRST_FREE. -/
structure LatchOk (s : State) : Prop where
  small     : s.lat.m.toNat ≤ 8
  clear     : s.lat.clear.toNat = 2 ^ s.lat.m.toNat
  endCode   : s.lat.endCode.toNat = 2 ^ s.lat.m.toNat + 1
  firstFree : s.lat.firstFree.toNat = 2 ^ s.lat.m.toNat + 2

/-- `N` is the pixel count of positive dimensions (R42), so that ADDR is defined below `N` (R284). -/
structure PlaceOk (s : State) : Prop where
  wid : 0 < s.lat.wid.toInt
  hgt : 0 < s.lat.hgt.toInt
  n   : s.lat.n = s.lat.wid.toNat * s.lat.hgt.toNat

/-- The decoder can resolve: the latch and the dictionary are sound, and PREV, if there is one, has a sequence. -/
structure DecReady (s : State) : Prop where
  latch : LatchOk s
  dict  : DictOk s.lat.m.toNat s.dec.d.toNat s.prefixMem s.suffixMem
  prev  : s.dec.prevValid = true → spellable s.lat.m.toNat s.dec.d.toNat s.dec.prev.toNat

/-- `seq(k)` in the decoder's dictionary. -/
def decSpells (s : State) (k : Nat) (S : List Byte) : Prop :=
  Spells s.lat.m.toNat s.dec.d.toNat s.prefixMem s.suffixMem k S

/-- Storing the indices `S` from stream position `s.dec.ocount` on (R188). -/
structure Stored (s t : State) (S : List Byte) : Prop where
  count     : t.dec.ocount = s.dec.ocount + S.length
  stored    : ∀ j (h : j < S.length), s.dec.ocount + j < s.lat.n →
    t.out.read (addrOf s.lat (s.dec.ocount + j)) = S[j]
  elsewhere : ∀ a, (∀ j, j < S.length → s.dec.ocount + j < s.lat.n → a ≠ addrOf s.lat (s.dec.ocount + j)) →
    t.out.read a = s.out.read a

/-- The insertion after data code `c`, `s0` being its first symbol (R187). -/
structure Inserted (s t : State) (c : Nat) (s0 : Byte) : Prop where
  prev    : t.dec.prev.toNat = c
  valid   : t.dec.prevValid = true
  reading : t.dec.dstate = .reading
  grown   : s.dec.prevValid = true → s.dec.d.toNat < 4096 → t.dec.d.toNat = s.dec.d.toNat + 1 ∧
    t.prefixMem.read s.dec.d.toNat = s.dec.prev ∧ t.suffixMem.read s.dec.d.toNat = s0 ∧
    ∀ k, k ≠ s.dec.d.toNat → t.prefixMem.read k = s.prefixMem.read k ∧ t.suffixMem.read k = s.suffixMem.read k
  frozen  : ¬(s.dec.prevValid = true ∧ s.dec.d.toNat < 4096) →
    t.dec.d = s.dec.d ∧ t.prefixMem = s.prefixMem ∧ t.suffixMem = s.suffixMem

/-- The encoder's entry `k` (R51): assigned, and standing for CUR followed by `c`. -/
def encEntry (s : State) (c : Byte) (k : Nat) : Prop :=
  s.lat.firstFree.toNat ≤ k ∧ k < s.enc.esize.toNat ∧ s.prefixMem.read k = s.enc.cur ∧ s.suffixMem.read k = c

/-- The insertion of `(p, c)` at code ESIZE (R240). -/
structure EntryStored (s t : State) (p : Code) (c : Byte) : Prop where
  pre   : t.prefixMem.read s.enc.esize.toNat = p
  suf   : t.suffixMem.read s.enc.esize.toNat = c
  other : ∀ k, k ≠ s.enc.esize.toNat →
    t.prefixMem.read k = s.prefixMem.read k ∧ t.suffixMem.read k = s.suffixMem.read k

/-- The next `w` payload bits the unpacker has before it. -/
def payloadBits (s : State) (w : Nat) : List Bool :=
  (List.range w).map fun i =>
    (s.pay.read ((s.unp.bitpos.toNat + i) / 8)).getLsbD ((s.unp.bitpos.toNat + i) % 8)

/-- The unpacker's state once `w` bits are consumed (R156). -/
def advanced (s : State) (w : Nat) : State :=
  { s with unp := { s.unp with bitpos := BitVec.ofNat 35 (s.unp.bitpos.toNat + w) } }

/-! ### Invariants of a run -/

/-- The legal STATUS values of R35. -/
def statusLegal (st : BitVec 16) : Prop :=
  st = 0 ∨ st = statusRunning ∨ st = statusSuccess ∨ ∃ x, st = statusAborted x

/-- What the host can rely on at any time: R35 (STATUS, and BUSY exactly while a transaction runs), R36 and R37
(no results but after a success), R32 (reserved CFG bits), and the canonical form of every memory. -/
structure HostInv (s : State) : Prop where
  status  : statusLegal s.regs.status
  busy    : s.busy = true ↔ s.phase ≠ .idle
  results : s.regs.status ≠ statusSuccess → s.regs.outLen = 0 ∧ s.regs.inConsumed = 0
  cfg     : s.regs.cfg &&& 0xC0#8 = 0
  inp     : s.inp.wf
  out     : s.out.wf
  pay     : s.pay.wf
  stk     : s.stk.wf
  pre     : s.prefixMem.wf
  suf     : s.suffixMem.wf

/-- What phase CHECK establishes and the rest of the transaction keeps: R42's latched constants, R340 and R341's
ranges, R86's capacities, R342, and the operation each phase belongs to (R41). -/
structure RunInv (s : State) : Prop where
  latched  : s.phase ≠ .idle → s.lat.clear = narrow 9 (2 ^ s.lat.m.toNat) ∧
    s.lat.endCode = narrow 9 (2 ^ s.lat.m.toNat + 1) ∧ s.lat.firstFree = narrow 9 (2 ^ s.lat.m.toNat + 2)
  checked  : s.phase ≠ .idle → s.phase ≠ .check → (2 ≤ s.lat.m.toNat ∧ s.lat.m.toNat ≤ 8) ∧
    (0 < s.lat.wid.toInt ∧ 0 < s.lat.hgt.toInt) ∧ s.lat.n = s.lat.wid.toNat * s.lat.hgt.toNat ∧
    s.lat.n ≤ s.params.maxPixels ∧ s.lat.ilen.toNat ≤ s.params.inCap
  capacity : s.phase ≠ .idle → s.phase ≠ .check →
    (s.lat.op = .decode → s.lat.n ≤ s.params.outCap) ∧
    (s.lat.op = .encode → framedBound s.lat.n ≤ s.params.outCap ∧ s.lat.ilen.toNat = s.lat.n)
  decoding : s.phase = .deframe ∨ s.phase = .lzwdec → s.lat.op = .decode
  encoding : s.phase = .encode ∨ s.phase = .flush → s.lat.op = .encode

/-- The decoder between two codes (R43, R44, R46, R48). -/
structure DecInv (s : State) : Prop where
  dict    : s.phase = .lzwdec → DictOk s.lat.m.toNat s.dec.d.toNat s.prefixMem s.suffixMem
  prev    : s.phase = .lzwdec → s.dec.prevValid = true →
    spellable s.lat.m.toNat s.dec.d.toNat s.dec.prev.toNat
  reading : s.phase = .lzwdec → s.dec.dstate ≠ .done → (s.dec.prevValid = true ↔ s.dec.dstate = .reading)
  cursor  : s.phase = .lzwdec → s.unp.bitpos.toNat ≤ 8 * s.unp.plen.toNat

/-- The encoder between two indices (R43, R44, R49, R50, R233, R247, R343), with the bound of R254 on what it has
emitted. -/
structure EncInv (s : State) : Prop where
  dict    : s.phase = .encode → DictOk s.lat.m.toNat s.enc.esize.toNat s.prefixMem s.suffixMem
  reset   : s.phase = .encode → s.lat.nr = false → s.enc.esize.toNat < 4096
  first   : s.phase = .encode → s.enc.firstd = true →
    s.enc.dsize.toNat = 2 ^ s.lat.m.toNat + 2 ∧ s.enc.esize.toNat = 2 ^ s.lat.m.toNat + 2
  later   : s.phase = .encode → s.enc.firstd = false →
    (s.enc.esize.toNat < 4096 → s.enc.dsize.toNat + 1 = s.enc.esize.toNat) ∧
    (s.enc.esize.toNat = 4096 → 4095 ≤ s.enc.dsize.toNat ∧ s.enc.dsize.toNat ≤ 4096)
  started : s.phase = .encode → s.enc.firstd = false → 2 ^ s.lat.m.toNat + 2 < s.enc.esize.toNat
  unique  : s.phase = .encode → ∀ j k, 2 ^ s.lat.m.toNat + 2 ≤ j → j < s.enc.esize.toNat →
    2 ^ s.lat.m.toNat + 2 ≤ k → k < s.enc.esize.toNat →
    s.prefixMem.read j = s.prefixMem.read k → s.suffixMem.read j = s.suffixMem.read k → j = k
  cur     : s.phase = .encode → spellable s.lat.m.toNat s.enc.esize.toNat s.enc.cur.toNat
  ipos    : s.phase = .encode → 1 ≤ s.enc.ipos.toNat ∧ s.enc.ipos.toNat ≤ s.lat.n
  indices : s.phase = .encode → ∀ i, i < s.lat.n → (s.inp.read i).toNat < 2 ^ s.lat.m.toNat
  clean   : s.phase = .encode ∨ s.phase = .flush → accClean s
  bits    : s.phase = .encode → packedLen s + 12 ≤ 24 * s.enc.ipos.toNat
  total   : s.phase = .flush → packedLen s ≤ 24 * s.lat.n + 24

/-- No byte of OUT is stored at or beyond OUT_CAP (R70, R78). -/
def OutInv (s : State) : Prop :=
  ∀ p, p ∈ s.out.cells → p.1 < s.params.outCap

/-- A run's invariant, all parts together. -/
structure Inv (s : State) : Prop where
  host : HostInv s
  run  : RunInv s
  dec  : DecInv s
  enc  : EncInv s
  out  : OutInv s

end Sys2Proof.Machine
end

