-- ==== Sys2Proof/Certificates/Slice0/Obligations.lean ====
section
/-! DEFINITION. The statements for the provers. Each says of the model what a rule of spec/ says of the block; the
docstring names the rule. A frame is written `t = { s with … }`: every field of the state that is not listed, every
byte of every memory among them, is as before. -/

open Sys2Proof Sys2Proof.Machine

/-! ### Reset and exceptions -/

/-- R55: the machine after power-on, which meets the run's invariant. The values of what R55 leaves without one (log 3 to 5) are not spoken of. -/
def Obligations.PowerOnState : Prop :=
  core.reset = State.reset ∧ State.reset.regs.status = 0x0000#16 ∧ State.reset.regs.outLen = 0 ∧
  State.reset.regs.inConsumed = 0 ∧ State.reset.phase = .idle ∧ State.reset.regs.cfgWritten = false ∧
  State.reset.regs.widthWritten = false ∧ State.reset.regs.heightWritten = false ∧
  State.reset.regs.inLenWritten = false ∧ State.reset.inp.cells = [] ∧ State.reset.out.cells = [] ∧
  State.reset.pay.cells = [] ∧ State.reset.stk.cells = [] ∧ State.reset.prefixMem.cells = [] ∧
  State.reset.suffixMem.cells = [] ∧ Inv State.reset

/-- R370, R371: RESET at any time, BUSY or not. That IN's contents are left unspecified too is the model's reading
(log 6). -/
def Obligations.ResetFromAnyState : Prop :=
  ∀ s : State, ∃ t, exec .reset s = .next t ∧ t.regs.status = 0x0000#16 ∧ t.regs.outLen = 0 ∧
    t.regs.inConsumed = 0 ∧ t.phase = .idle ∧ regsWritten t.regs = false ∧
    t.regs.cfgWritten = false ∧ t.regs.widthWritten = false ∧ t.regs.heightWritten = false ∧
    t.regs.inLenWritten = false ∧ t.inp.cells = [] ∧ t.out.cells = [] ∧ t.pay.cells = [] ∧ t.stk.cells = [] ∧
    t.prefixMem.cells = [] ∧ t.suffixMem.cells = [] ∧ t.params = s.params ∧ t.host = s.host ∧ t.rdata = s.rdata ∧
    t.diag = s.diag ∧
    ∀ rest, s.host = .reset :: rest → step s = exec .reset (s.setHost rest)

/-- R334: ABORT reports its cause, clears the results, returns to IDLE, leaves every buffer of the block
unspecified, and touches nothing of the host's. -/
def Obligations.AbortReportsCause : Prop :=
  ∀ (x : Cause) (s : State), ∃ t, exec (.abort x) s = .next t ∧
    statusBusy t.regs.status = false ∧ statusDone t.regs.status = true ∧ statusErr t.regs.status = true ∧
    statusKind t.regs.status = causeKind x ∧ statusDetail t.regs.status = causeDetail x ∧
    t.regs = { s.regs with status := t.regs.status, outLen := 0, inConsumed := 0 } ∧ t.phase = .idle ∧
    t.out.cells = [] ∧ t.pay.cells = [] ∧ t.stk.cells = [] ∧ t.prefixMem.cells = [] ∧ t.suffixMem.cells = [] ∧
    t = { s with regs := t.regs, phase := .idle, lat := t.lat, dec := t.dec, unp := t.unp, pk := t.pk, enc := t.enc,
                 out := t.out, pay := t.pay, stk := t.stk, prefixMem := t.prefixMem, suffixMem := t.suffixMem,
                 free := t.free }

/-- R35 and R331: STATUS reads back each field it is made of, its reserved bits read 0, and each cause gives the
STATUS word of 95_test_vectors.md. -/
def Obligations.StatusWordFields : Prop :=
  (∀ (busy done err : Bool) (kind : BitVec 2) (detail : BitVec 4),
    statusBusy (statusWord busy done err kind detail) = busy ∧
    statusDone (statusWord busy done err kind detail) = done ∧
    statusErr (statusWord busy done err kind detail) = err ∧
    statusKind (statusWord busy done err kind detail) = kind ∧
    statusDetail (statusWord busy done err kind detail) = detail ∧
    (statusWord busy done err kind detail).extractLsb' 5 3 = 0 ∧
    (statusWord busy done err kind detail).extractLsb' 12 4 = 0) ∧
  statusSuccess = 0x0002#16 ∧ statusAborted .mcsRange = 0x010E#16 ∧ statusAborted .frameOverrun = 0x020E#16 ∧
  statusAborted .frameNoTerminator = 0x030E#16 ∧ statusAborted .prematureEnd = 0x040E#16 ∧
  statusAborted .badCode = 0x050E#16 ∧ statusAborted .deferNoPrev = 0x060E#16 ∧
  statusAborted .dimNonpositive = 0x0816#16 ∧ statusAborted .mcsRangeEnc = 0x0916#16 ∧
  statusAborted .indexRange = 0x0A16#16 ∧ statusAborted .decodeCount = 0x0C1E#16 ∧
  statusAborted .encodeLength = 0x0D1E#16

/-! ### Encodings -/

/-- R110, written out: sample words of every format decode to what they stand for. -/
def Obligations.SampleWordsDecode : Prop :=
  decodeTableWord 8 0x81 = some .decode ∧ decodeTableWord 8 0x82 = some .encode ∧
  decodeTableWord 8 0x00 = some (.cmdNop 0x00#7) ∧ decodeTableWord 8 0x01 = some (.cmdNop 0x01#7) ∧
  decodeTableWord 8 0x83 = some (.cmdReserved 0x03#7) ∧ decodeTableWord 8 0x85 = some (.cmdReserved 0x05#7) ∧
  decode ⟨2, 6, false⟩ (.code [false, false, true]) = .ok .clear ∧
  decode ⟨2, 7, true⟩ (.code [false, true, true]) = .ok (.dict 6#12) ∧
  decode ⟨2, 8, true⟩ (.code [false, false, false, true]) = .ok .defer ∧
  decode ⟨2, 9, true⟩ (.code [true, false, true, false]) = .ok .endCode ∧
  decode ⟨2, 6, true⟩ (.code [true, true, false]) = .ok (.lit 3#8) ∧
  decode ⟨2, 6, false⟩ (.code [true, true, true]) = .ok (.badcode 7#12) ∧
  decode ⟨2, 6, false⟩ (.frame [0x02#8, 0x84#8, 0x8F#8]) = .ok (.subblock [0x84#8, 0x8F#8]) ∧
  decode ⟨2, 6, false⟩ (.frame [0x00#8]) = .ok .term

/-- R110: the command values that start a transaction are 0x81 and 0x82, in an idle machine with its registers
written (R300, R57); a write with START = 0 is a no-op in any
state; every other write with START = 1 is refused in every state. -/
def Obligations.CommandEncoding : Prop :=
  ∀ (v : Byte) (s : State),
    (v = 0x81#8 → decodeCmd v = .decode) ∧ (v = 0x82#8 → decodeCmd v = .encode) ∧
    (v = 0x81#8 ∨ v = 0x82#8 → s.busy = false → regsWritten s.regs = true →
      ∃ t, exec (decodeCmd v) s = .next t ∧ t.busy = true ∧ t.phase = .check) ∧
    (v.toNat < 128 → exec (decodeCmd v) s = .next s) ∧
    (128 ≤ v.toNat → v ≠ 0x81#8 → v ≠ 0x82#8 → ∃ r, exec (decodeCmd v) s = .refused r)

/-- R300 and R301 on the two commands that start nothing: CMD_NOP completes with no effect, BUSY or not, and
CMD_RESERVED stops under the name of what it met first. -/
def Obligations.CommandsThatStartNothing : Prop :=
  ∀ (low : BitVec 7) (s : State),
    exec (.cmdNop low) s = .next s ∧
    (s.busy = true → exec (.cmdReserved low) s = .refused .startWhileBusy) ∧
    (s.busy = false → exec (.cmdReserved low) s = .refused .reservedCommand)

/-- Decoding what a well-formed instruction encodes to gives it back, for every command, code class and framing
word, with every operand its encoding admits. -/
def Obligations.DecodeOfEncode : Prop :=
  ∀ (x : Ctx) (i : Instr), x.ok = true → i.wf = true → i.wfIn x = true →
    (i = .decode ∨ i = .encode ∨ (∃ v, i = .cmdNop v) ∨ (∃ v, i = .cmdReserved v) ∨ i = .clear ∨ i = .endCode ∨
      (∃ c, i = .lit c) ∨ (∃ c, i = .dict c) ∨ i = .defer ∨ (∃ c, i = .badcode c ∧ c.toNat < 2 ^ Wd x.d) ∨
      (∃ p, i = .subblock p) ∨ i = .term) →
    decode x (encode x i) = .ok i

/-- Each CMD byte and each code field has one meaning: encoding what it decodes to gives it back. -/
def Obligations.EncodeOfDecode : Prop :=
  ∀ (x : Ctx) (i : Instr), x.ok = true →
    (∀ b, decode x (.cmd b) = .ok i → encode x i = .cmd b) ∧
    (∀ bits, decode x (.code bits) = .ok i → encode x i = .code bits)

/-- R107: what the encoder's output classes spell reads back as CLEAR, as LIT, DICT or DEFER, and as END. -/
def Obligations.EmittedClassesReadBack : Prop :=
  ∀ x : Ctx, x.ok = true →
    decode x (encode x .eClearStart) = .ok .clear ∧ decode x (encode x .eClearFull) = .ok .clear ∧
    decode x (encode x .eEnd) = .ok .endCode ∧
    ∀ c : Code, (Instr.eData c).wfIn x = true → (c.toNat = x.d → x.d < 4096 ∧ x.prevValid = true) →
      decode x (encode x (.eData c)) = .ok (.lit (c.setWidth 8)) ∨
      decode x (encode x (.eData c)) = .ok (.dict c) ∨ decode x (encode x (.eData c)) = .ok .defer

/-- R105: which class a code of width `Wd(D)` is in, each class exactly under its condition; at `D = 4096` neither
DEFER nor BADCODE occurs. -/
def Obligations.CodeClasses : Prop :=
  ∀ (x : Ctx) (c : Code), x.ok = true → c.toNat < 2 ^ Wd x.d →
    (classify x c = .clear ↔ c.toNat = 2 ^ x.m) ∧
    (classify x c = .endCode ↔ c.toNat = 2 ^ x.m + 1) ∧
    ((∃ b : Byte, classify x c = .lit b ∧ b.toNat = c.toNat) ↔ c.toNat < 2 ^ x.m) ∧
    (classify x c = .dict c ↔ 2 ^ x.m + 2 ≤ c.toNat ∧ c.toNat < x.d) ∧
    (classify x c = .defer ↔ c.toNat = x.d ∧ x.d < 4096 ∧ x.prevValid = true) ∧
    (classify x c = .badcode c ↔ (c.toNat = x.d ∧ x.prevValid = false) ∨ x.d < c.toNat) ∧
    (x.d = 4096 → classify x c ≠ .defer ∧ classify x c ≠ .badcode c)

/-- R15: `Wd(D)` is the smallest `w` with `2^w >= min(D + 1, 4096)`, never more than 12, and
`min(12, bitlen(D))` for a dictionary size. -/
def Obligations.WidthIsLeast : Prop :=
  ∀ D : Nat, min (D + 1) 4096 ≤ 2 ^ Wd D ∧ (∀ w, min (D + 1) 4096 ≤ 2 ^ w → Wd D ≤ w) ∧ Wd D ≤ 12 ∧
    (D ≤ 4096 → Wd D = min 12 (Nat.size D))

/-! ### The step -/

/-- The host's next access, whichever it is, is consumed and then made (log 7); a CMD write so runs the instruction its
byte decodes to, which is how every command is fetched. A table word put in place by withFetchWord is so run at the very next
step, with R374's writes taken as made (log 12). -/
def Obligations.StepRunsHostCommand : Prop :=
  (∀ (s : State) (x : HostAccess) (rest : List HostAccess), s.host = x :: rest →
    step s = hostAccess x (s.setHost rest)) ∧
  (∀ (s : State) (v : Byte) (rest : List HostAccess), s.host = .writeCmd v :: rest →
    step s = exec (decodeCmd v) (s.setHost rest)) ∧
  ∀ (s : State) (w : Nat) (i : Instr), decodeTableWord 8 w = some i →
    step (s.withFetchWord 8 w) = exec i (s.setRegs (bootRegs s.regs))

/-- R306, R314 and R237, phase by phase: with no access pending, or on a turn in which the host makes none, the
block's records leave over DIAG (R38, log 15), the step runs the instruction of the phase, and then enters the next
phase. Which instructions share one step is the model's schedule, a choice that R390 leaves open (log 7). Phase CHECK
has statements of its own. -/
def Obligations.StepRunsPhaseInstruction : Prop :=
  ∀ (s u : State),
    (s.host = [] ∧ u = writeDiag s) ∨ (∃ rest, s.host = .idle :: rest ∧ u = writeDiag (s.setHost rest)) →
    (u.phase = .idle → step s = .next u) ∧
    (u.phase = .check → step s = blockStep u) ∧
    (u.phase = .deframe → step s = andThen (exec .deframe u) fun t =>
      if t.phase = .deframe then exec .decoderInit (t.setPhase .lzwdec) else .next t) ∧
    (u.phase = .lzwdec → u.dec.dstate ≠ .done → step s = exec .decstep u) ∧
    (u.phase = .lzwdec → u.dec.dstate = .done → step s = .next (u.setPhase .finish)) ∧
    (u.phase = .encode → u.enc.ipos.toNat < u.lat.n → step s = exec .encStep u) ∧
    (u.phase = .encode → u.lat.n ≤ u.enc.ipos.toNat → step s = andThen (exec .final u) fun t =>
      andThen (exec .eEnd t) fun t' => .next (t'.setPhase .flush)) ∧
    (u.phase = .flush → step s = andThen (exec .flush u) fun t => .next (t.setPhase .finish)) ∧
    (u.phase = .finish → u.lat.op = .decode → step s = exec .finishDecode u) ∧
    (u.phase = .finish → u.lat.op = .encode → step s = exec .finishEncode u)

/-- R189 with R101 and R102: DECSTEP runs the instruction that the next `Wd(D)` payload bits decode to, those bits
being consumed first. -/
def Obligations.DecstepRunsDecodedCode : Prop :=
  ∀ s : State, s.unp.bitpos.toNat + Wd s.dec.d.toNat ≤ 8 * s.unp.plen.toNat →
    ∃ i, decode s.decCtx (.code (payloadBits s (Wd s.dec.d.toNat))) = .ok i ∧
      exec .decstep s = exec i (advanced s (Wd s.dec.d.toNat))

/-! ### Transactions and the host port -/

/-- R300, R42, R380: an accepted START sets STATUS to running, clears the results, latches the parameters and enters
phase CHECK; nothing else changes. A START with CFG, WIDTH, HEIGHT or IN_LEN unwritten is refused (R57). -/
def Obligations.StartLatchesParameters : Prop :=
  ∀ s : State, s.busy = false →
    ∀ (i : Instr) (op : Op), (i = .decode ∧ op = .decode) ∨ (i = .encode ∧ op = .encode) →
    (s.regs.cfgWritten = false ∨ s.regs.widthWritten = false ∨ s.regs.heightWritten = false ∨
      s.regs.inLenWritten = false → exec i s = .refused .registerUnwritten) ∧
    (s.regs.cfgWritten = true → s.regs.widthWritten = true → s.regs.heightWritten = true →
      s.regs.inLenWritten = true →
      ∃ t, exec i s = .next t ∧ t.phase = .check ∧
        t.regs = { s.regs with status := 0x0001#16, outLen := 0, inConsumed := 0 } ∧
        t.lat.op = op ∧ t.lat.m.toNat = s.regs.cfg.toNat % 16 ∧
        (t.lat.m.toNat ≤ 8 → LatchOk t) ∧
        t.lat.intl = s.regs.cfg.getLsbD 4 ∧ t.lat.nr = s.regs.cfg.getLsbD 5 ∧
        t.lat.wid = s.regs.width ∧ t.lat.hgt = s.regs.height ∧ t.lat.ilen = s.regs.inLen ∧ t.lat.n = s.lat.n ∧
        t = { s with regs := t.regs, lat := t.lat, phase := .check })

/-- R301: a CMD write with START = 1 while BUSY = 1 is refused. -/
def Obligations.StartWhileBusyRefused : Prop :=
  ∀ (s : State) (v : Byte), s.busy = true → 128 ≤ v.toNat → exec (decodeCmd v) s = .refused .startWhileBusy

/-- R306 and R338 on phase CHECK of a DECODE: the first check that fails decides, and a passed CHECK latches `N`
and enters DEFRAME. -/
def Obligations.CheckOfDecode : Prop :=
  ∀ s : State, s.phase = .check → s.lat.op = .decode →
    (¬(2 ≤ s.lat.m.toNat ∧ s.lat.m.toNat ≤ 8) → blockStep s = exec (.abort .mcsRange) s) ∧
    (2 ≤ s.lat.m.toNat → s.lat.m.toNat ≤ 8 → s.lat.wid.toInt ≤ 0 ∨ s.lat.hgt.toInt ≤ 0 →
      blockStep s = exec (.abort .dimNonpositive) s) ∧
    (2 ≤ s.lat.m.toNat → s.lat.m.toNat ≤ 8 → 0 < s.lat.wid.toInt → 0 < s.lat.hgt.toInt →
      ((s.params.maxPixels : Int) < s.lat.wid.toInt * s.lat.hgt.toInt ∨ s.params.inCap < s.lat.ilen.toNat ∨
        (s.params.outCap : Int) < s.lat.wid.toInt * s.lat.hgt.toInt) →
      blockStep s = .refused .beyondCapacity) ∧
    (2 ≤ s.lat.m.toNat → s.lat.m.toNat ≤ 8 → 0 < s.lat.wid.toInt → 0 < s.lat.hgt.toInt →
      s.lat.wid.toInt * s.lat.hgt.toInt ≤ (s.params.maxPixels : Int) → s.lat.ilen.toNat ≤ s.params.inCap →
      s.lat.wid.toInt * s.lat.hgt.toInt ≤ (s.params.outCap : Int) →
      ∃ t, blockStep s = .next t ∧ (t.lat.n : Int) = s.lat.wid.toInt * s.lat.hgt.toInt ∧
        t = { s with phase := .deframe, lat := { s.lat with n := t.lat.n } })

/-- R314 and R338 on phase CHECK of an ENCODE: the first check that fails decides; a passed CHECK latches `N`, and
ENCODER_INIT, E_CLEAR_START and MATCH_START open phase ENCODE (R245). That these three run in the same step as CHECK is
the model's choice (log 7). -/
def Obligations.CheckOfEncode : Prop :=
  ∀ s : State, s.phase = .check → s.lat.op = .encode →
    (¬(2 ≤ s.lat.m.toNat ∧ s.lat.m.toNat ≤ 8) → blockStep s = exec (.abort .mcsRangeEnc) s) ∧
    (2 ≤ s.lat.m.toNat → s.lat.m.toNat ≤ 8 →
      (s.lat.wid.toInt ≤ 0 ∨ s.lat.hgt.toInt ≤ 0 → blockStep s = exec (.abort .dimNonpositive) s) ∧
      (0 < s.lat.wid.toInt → 0 < s.lat.hgt.toInt →
        ((s.lat.ilen.toNat : Int) ≠ s.lat.wid.toInt * s.lat.hgt.toInt →
          blockStep s = exec (.abort .encodeLength) s) ∧
        ((s.lat.ilen.toNat : Int) = s.lat.wid.toInt * s.lat.hgt.toInt →
          (s.params.maxPixels < s.lat.ilen.toNat ∨ s.params.inCap < s.lat.ilen.toNat ∨
              s.params.outCap < framedBound s.lat.ilen.toNat →
            blockStep s = .refused .beyondCapacity) ∧
          (s.lat.ilen.toNat ≤ s.params.maxPixels → s.lat.ilen.toNat ≤ s.params.inCap →
              framedBound s.lat.ilen.toNat ≤ s.params.outCap →
            ((∃ i, i < s.lat.ilen.toNat ∧ 2 ^ s.lat.m.toNat ≤ (s.inp.read i).toNat) →
              blockStep s = exec (.abort .indexRange) s) ∧
            ((∀ i, i < s.lat.ilen.toNat → (s.inp.read i).toNat < 2 ^ s.lat.m.toNat) →
              ∃ a b t, blockStep s = .next t ∧
                exec .encoderInit { s with phase := .encode, lat := { s.lat with n := s.lat.ilen.toNat } } = .next a ∧
                exec .eClearStart a = .next b ∧ exec .matchStart b = .next t)))))

/-- R307, R190 and R316: publication of the results, or the count error. OUT_LEN has 32 bits (R36), and nothing is said
of it for an `N` they cannot hold (log 19). -/
def Obligations.FinishPublishes : Prop :=
  ∀ s : State,
    (s.dec.ocount = s.lat.n → ∃ t, exec .finishDecode s = .next t ∧ (s.lat.n < 2 ^ 32 → t.regs.outLen.toNat = s.lat.n) ∧
      t = { s with phase := .idle,
                   regs := { s.regs with status := 0x0002#16, outLen := t.regs.outLen,
                                         inConsumed := s.unp.icons } }) ∧
    (s.dec.ocount ≠ s.lat.n → exec .finishDecode s = exec (.abort .decodeCount) s) ∧
    exec .finishEncode s = .next { s with
      phase := .idle
      regs := { s.regs with status := 0x0002#16, outLen := s.pk.flen, inConsumed := s.lat.ilen } }

/-- R32 to R34, R320, R380: a host write to CFG, WIDTH, HEIGHT or IN_LEN is accepted at any time, reads back at
once, and changes nothing else, the running transaction's latched parameters included. That a host write to the
read-only STATUS, OUT_LEN or IN_CONSUMED is taken and changes nothing is the model's choice (log 21). -/
def Obligations.HostRegisterWrites : Prop :=
  ∀ (s : State),
    (∀ v, ∃ t u, hostAccess (.writeCfg v) s = .next t ∧ t.regs.cfg.toNat = v.toNat % 64 ∧
      t = { s with regs := { s.regs with cfg := t.regs.cfg, cfgWritten := true } } ∧
      hostAccess .readCfg t = .next u ∧ u.rdata.toNat = v.toNat % 64 ∧ u = { t with rdata := u.rdata }) ∧
    (∀ v, ∃ t, hostAccess (.writeWidth v) s = .next t ∧
      t = { s with regs := { s.regs with width := v, widthWritten := true } } ∧
      hostAccess .readWidth t = .next { t with rdata := v }) ∧
    (∀ v, ∃ t, hostAccess (.writeHeight v) s = .next t ∧
      t = { s with regs := { s.regs with height := v, heightWritten := true } } ∧
      hostAccess .readHeight t = .next { t with rdata := v }) ∧
    (∀ v, ∃ t, hostAccess (.writeInLen v) s = .next t ∧
      t = { s with regs := { s.regs with inLen := v, inLenWritten := true } } ∧
      hostAccess .readInLen t = .next { t with rdata := v }) ∧
    (∀ v, hostAccess (.writeStatus v) s = .next s ∧ hostAccess (.writeOutLen v) s = .next s ∧
      hostAccess (.writeInConsumed v) s = .next s)

/-- R320, R32, R35 to R37, R57, R72, R82: what the host's reads return; they change nothing but what the host last
read. A read of a register not yet written, or of OUT past OUT_LEN, completes with a free value of the register's or
the byte's width (log 1), CFG's reserved bits reading 0 always. -/
def Obligations.HostReadsResults : Prop :=
  ∀ s : State,
    (∃ t, hostAccess .readStatus s = .next t ∧ t.rdata.toNat = s.regs.status.toNat ∧ t = { s with rdata := t.rdata }) ∧
    hostAccess .readOutLen s = .next { s with rdata := s.regs.outLen } ∧
    hostAccess .readInConsumed s = .next { s with rdata := s.regs.inConsumed } ∧
    (s.regs.cfgWritten = false → ∃ t, hostAccess .readCfg s = .next t ∧ t.rdata.toNat < 64 ∧
      t = { s with rdata := t.rdata, free := t.free }) ∧
    (s.regs.widthWritten = false → ∃ t, hostAccess .readWidth s = .next t ∧
      t = { s with rdata := t.rdata, free := t.free }) ∧
    (s.regs.heightWritten = false → ∃ t, hostAccess .readHeight s = .next t ∧
      t = { s with rdata := t.rdata, free := t.free }) ∧
    (s.regs.inLenWritten = false → ∃ t, hostAccess .readInLen s = .next t ∧
      t = { s with rdata := t.rdata, free := t.free }) ∧
    (∀ a, s.busy = false → a < s.params.outCap →
      (a < s.regs.outLen.toNat → ∃ t, hostAccess (.readOut a) s = .next t ∧
        t.rdata.toNat = (s.out.read a).toNat ∧ t = { s with rdata := t.rdata }) ∧
      (s.regs.outLen.toNat ≤ a → ∃ t, hostAccess (.readOut a) s = .next t ∧ t.rdata.toNat < 256 ∧
        t = { s with rdata := t.rdata, free := t.free }))

/-- R381, R31 and R70: the accesses the model refuses, and the host's writes to IN it takes. What R381 and R70 leave
open (a write to IN past ILEN while busy is taken, a write to OUT while idle is refused, an address past the end
faults) is the model's choice (log 8). -/
def Obligations.HostBufferDuties : Prop :=
  ∀ (s : State) (a : Nat) (b : Byte),
    (s.busy = true → a < s.lat.ilen.toNat → hostAccess (.writeIn a b) s = .refused .hostWroteInWhileBusy) ∧
    (s.busy = true → hostAccess (.readOut a) s = .refused .hostReadOutWhileBusy) ∧
    hostAccess (.writeOut a b) s = .refused .hostWroteOut ∧ hostAccess .readCmd s = .refused .readOfCmd ∧
    (s.busy = false ∨ s.lat.ilen.toNat ≤ a → a < s.params.inCap → ∃ t, hostAccess (.writeIn a b) s = .next t ∧
      t.inp.read a = b ∧ (∀ c, c ≠ a → t.inp.read c = s.inp.read c) ∧ t = { s with inp := t.inp }) ∧
    (s.busy = false ∨ s.lat.ilen.toNat ≤ a → s.params.inCap ≤ a →
      hostAccess (.writeIn a b) s = .fault .noSuchInAddress) ∧
    (s.busy = false → s.params.outCap ≤ a → hostAccess (.readOut a) s = .fault .noSuchOutAddress)

/-! ### Packing layer -/

/-- R141. -/
def Obligations.PackInitEffect : Prop :=
  ∀ s : State, exec .packInit s = .next { s with pk := { s.pk with acc := 0, nacc := 0, oplen := 0 } }

/-- R142: payload byte `i` goes to `OUT[i + (i div 255) + 1]`. Of an OPLEN that 32 bits cannot hold nothing is said
(log 19). -/
def Obligations.PutbyteEffect : Prop :=
  ∀ (b : Byte) (s : State),
    ∃ t, exec (.putbyte b) s = .next t ∧
      t.out.read (s.pk.oplen.toNat + s.pk.oplen.toNat / 255 + 1) = b ∧
      (∀ a, a ≠ s.pk.oplen.toNat + s.pk.oplen.toNat / 255 + 1 → t.out.read a = s.out.read a) ∧
      (s.pk.oplen.toNat + 1 < 2 ^ 32 → t.pk.oplen.toNat = s.pk.oplen.toNat + 1) ∧
      t = { s with out := t.out, pk := { s.pk with oplen := t.pk.oplen } }

/-- R146, R143, R74: WRITECODE appends the low `width` bits of the code, least significant first, to the payload
bits; complete bytes go to OUT and nothing else of OUT changes. It completes without room to count them too (log 19). -/
def Obligations.WritecodeAppendsBits : Prop :=
  ∀ (code : Code) (width : Nat) (s : State), (Instr.writecode code width).wf = true → accClean s →
    ∃ t, exec (.writecode code width) s = .next t ∧ accClean t ∧
      (packRoom s width → Appends s t code.toNat width) ∧ t = { s with out := t.out, pk := t.pk }

/-- R147: FLUSH writes the partial byte, every sub-block's length byte, the terminator, and FLEN; no other byte of
OUT changes. It completes in every state; of a length that 32 bits cannot hold nothing is said (log 19). -/
def Obligations.FlushFrames : Prop :=
  ∀ (s : State) (P NB : Nat),
    P = s.pk.oplen.toNat + (if 0 < s.pk.nacc.toNat then 1 else 0) → NB = (P + 254) / 255 →
    ∃ t, exec .flush s = .next t ∧ t.pk.nacc = 0 ∧
      (0 < s.pk.nacc.toNat → t.pk.acc = 0) ∧ (s.pk.nacc = 0 → t.pk.acc = s.pk.acc) ∧
      (P < 2 ^ 32 →
        (0 < s.pk.nacc.toNat → t.out.read (payloadAddr s.pk.oplen.toNat) = s.pk.acc) ∧
        (∀ i, i < NB → (t.out.read (256 * i)).toNat = min 255 (P - 255 * i)) ∧
        t.out.read (P + NB) = 0 ∧ t.pk.oplen.toNat = P ∧
        (P + NB + 1 < 2 ^ 32 → t.pk.flen.toNat = P + NB + 1) ∧
        ∀ a, a ≠ P + NB → (∀ i, i < NB → a ≠ 256 * i) →
          (0 < s.pk.nacc.toNat → a ≠ payloadAddr s.pk.oplen.toNat) → t.out.read a = s.out.read a) ∧
      t = { s with out := t.out, pk := t.pk }

/-- R108 and R150 on one framing word: SUBBLOCK appends its payload to PAY, TERM ends the sequence and sets ICONS. -/
def Obligations.FramingWordEffects : Prop :=
  ∀ s : State,
    (∀ payload : List Byte, (Instr.subblock payload).wf = true → s.unp.plen.toNat + payload.length < 2 ^ 32 →
      s.unp.fpos.toNat + 1 + payload.length < 2 ^ 32 →
      ∃ t, exec (.subblock payload) s = .next t ∧ t.unp.plen.toNat = s.unp.plen.toNat + payload.length ∧
        t.unp.fpos.toNat = s.unp.fpos.toNat + 1 + payload.length ∧
        (∀ j (h : j < payload.length), t.pay.read (s.unp.plen.toNat + j) = payload[j]) ∧
        (∀ a, a < s.unp.plen.toNat ∨ s.unp.plen.toNat + payload.length ≤ a → t.pay.read a = s.pay.read a) ∧
        t = { s with pay := t.pay, unp := { s.unp with plen := t.unp.plen, fpos := t.unp.fpos } }) ∧
    (s.unp.fpos.toNat + 1 < 2 ^ 32 →
      ∃ t, exec .term s = .next t ∧ t.unp.fpos.toNat = s.unp.fpos.toNat + 1 ∧
        t.unp.icons.toNat = s.unp.fpos.toNat + 1 ∧
        t = { s with unp := { s.unp with fpos := t.unp.fpos, icons := t.unp.icons } })

/-- R150 to R152, R154: DEFRAME leaves in PAY the payload, in PLEN its length, in ICONS the framed length, or
aborts with the framing error, as the transaction level has them. -/
def Obligations.DeframeSeparatesPayload : Prop :=
  ∀ s : State,
    (∀ payload consumed, txDeframe (s.lat.ilen.toNat + 1) (inputBytes s) [] 0 = .ok (payload, consumed) →
      ∃ t, exec .deframe s = .next t ∧ t.unp.plen.toNat = payload.length ∧ t.unp.icons.toNat = consumed ∧
        t.unp.bitpos = 0 ∧ (∀ j (h : j < payload.length), t.pay.read j = payload[j]) ∧
        (∀ a, payload.length ≤ a → t.pay.read a = s.pay.read a) ∧ t = { s with pay := t.pay, unp := t.unp }) ∧
    (∀ x, txDeframe (s.lat.ilen.toNat + 1) (inputBytes s) [] 0 = .error x →
      exec .deframe s = exec (.abort x) s)

/-- R156, R157, R101: READCODE returns the next `width` payload bits, bit 0 first, or aborts with PREMATURE_END
when fewer are left. -/
def Obligations.ReadcodeReadsBits : Prop :=
  ∀ (width : Nat) (s : State), (Instr.readcode width).wf = true →
    (s.unp.bitpos.toNat + width ≤ 8 * s.unp.plen.toNat →
      ∃ t, exec (.readcode width) s = .next t ∧ t.ret < 2 ^ width ∧
        (∀ i, i < width → t.ret.testBit i =
          (s.pay.read ((s.unp.bitpos.toNat + i) / 8)).getLsbD ((s.unp.bitpos.toNat + i) % 8)) ∧
        t.unp.bitpos.toNat = s.unp.bitpos.toNat + width ∧
        t = { s with ret := t.ret, unp := { s.unp with bitpos := t.unp.bitpos } }) ∧
    (8 * s.unp.plen.toNat < s.unp.bitpos.toNat + width →
      exec (.readcode width) s = exec (.abort .prematureEnd) s)

/-! ### Interlace mapper -/

/-- R281 to R283: for `r < H` ROWMAP completes with the r-th row of the four passes, which hold every row once. That it
completes with some value for every other operand too is the model's choice (log 2): R283 gives it for `r < H` only. -/
def Obligations.RowmapIsPassOrder : Prop :=
  ∀ (r : Nat) (s : State),
    ∃ t, exec (.rowmap r) s = .next t ∧ t = { s with ret := t.ret } ∧
      ((r : Int) < s.lat.hgt.toInt → (passOrder s.lat.hgt.toNat)[r]? = some t.ret ∧
        (passOrder s.lat.hgt.toNat).Perm (List.range s.lat.hgt.toNat))

/-- R284, R285: below `N` ADDR completes, is the identity without interlacing and the row remap with it, stays below
`N`, and sends no two stream positions to one address. That it completes for every other operand too, as the identity
without interlacing and with some value with it, is the model's choice (log 2): R284 gives it for `p < N` only. -/
def Obligations.AddrIsBijection : Prop :=
  ∀ (p : Nat) (s : State),
    ∃ t, exec (.addr p) s = .next t ∧ t = { s with ret := t.ret } ∧ (s.lat.intl = false → t.ret = p) ∧
      (PlaceOk s → p < s.lat.n → t.ret < s.lat.n ∧
        (s.lat.intl = true → ∃ row, (passOrder s.lat.hgt.toNat)[p / s.lat.wid.toNat]? = some row ∧
          t.ret = row * s.lat.wid.toNat + p % s.lat.wid.toNat) ∧
        ∀ q u, q < s.lat.n → exec (.addr q) s = .next u → u.ret = t.ret → q = p)

/-! ### Decoder -/

/-- R180, R181, R182: the register effects of DECODER_INIT, CLEAR and END. -/
def Obligations.DecoderRegisterSteps : Prop :=
  ∀ s : State,
    (∃ t, exec .decoderInit s = .next t ∧ t.dec.d.toNat = s.lat.firstFree.toNat ∧
      t = { s with dec := { s.dec with d := t.dec.d, prevValid := false, dstate := .init, ocount := 0 } }) ∧
    (∃ t, exec .clear s = .next t ∧ t.dec.d.toNat = s.lat.firstFree.toNat ∧
      t = { s with dec := { s.dec with d := t.dec.d, prevValid := false, dstate := .cleared } }) ∧
    exec .endCode s = .next { s with dec := { s.dec with dstate := .done } }

/-- R196, R43: RESOLVE(k) spells `seq(k)` and leaves it in STK, last symbol at position 0. -/
def Obligations.ResolveSpellsSequence : Prop :=
  ∀ (k : Code) (s : State), DecReady s → spellable s.lat.m.toNat s.dec.d.toNat k.toNat →
    ∃ t S, exec (.resolve k) s = .next t ∧ decSpells s k.toNat S ∧
      (∀ j (h : j < S.length), t.stk.read (S.length - 1 - j) = S[j]) ∧
      (∀ a, S.length ≤ a → t.stk.read a = s.stk.read a) ∧ t = { s with stk := t.stk }

/-- R191: every sequence of a sound dictionary is spelled one way only, is not empty, and holds only symbols below
`2^m`. -/
def Obligations.SequencesAreLiteral : Prop :=
  ∀ (s : State) (k : Nat) (S : List Byte), DecReady s → decSpells s k S →
    S ≠ [] ∧ (∀ b, b ∈ S → b.toNat < 2 ^ s.lat.m.toNat) ∧ ∀ S', decSpells s k S' → S' = S

/-- R187. -/
def Obligations.InsertEffect : Prop :=
  ∀ (c : Code) (s0 : Byte) (s : State), s.dec.d.toNat ≤ 4096 →
    ∃ t, exec (.insert c s0) s = .next t ∧ Inserted s t c.toNat s0 ∧ t.dec.ocount = s.dec.ocount ∧
      t = { s with dec := t.dec, prefixMem := t.prefixMem, suffixMem := t.suffixMem }

/-- R188: each symbol is counted; those below `N` are stored at their ADDR, and no other byte of OUT changes. -/
def Obligations.OutputStoresIndices : Prop :=
  ∀ (S : List Byte) (s : State), PlaceOk s →
    ∃ t, exec (.output S) s = .next t ∧ Stored s t S ∧
      t = { s with out := t.out, dec := { s.dec with ocount := t.dec.ocount } }

/-- R183: LIT outputs its own symbol and inserts. -/
def Obligations.LitEffect : Prop :=
  ∀ (c : Byte) (s : State), PlaceOk s → s.dec.d.toNat ≤ 4096 →
    ∃ t, exec (.lit c) s = .next t ∧ Stored s t [c] ∧ Inserted s t c.toNat c ∧
      t = { s with out := t.out, dec := t.dec, prefixMem := t.prefixMem, suffixMem := t.suffixMem }

/-- R184: DICT outputs the sequence of its code and inserts. -/
def Obligations.DictEffect : Prop :=
  ∀ (c : Code) (s : State), DecReady s → PlaceOk s → 2 ^ s.lat.m.toNat + 2 ≤ c.toNat → c.toNat < s.dec.d.toNat →
    ∃ t S s0, exec (.dict c) s = .next t ∧ decSpells s c.toNat S ∧ S.head? = some s0 ∧ Stored s t S ∧
      Inserted s t c.toNat s0 ∧
      t = { s with out := t.out, stk := t.stk, dec := t.dec, prefixMem := t.prefixMem, suffixMem := t.suffixMem }

/-- R185: DEFER outputs `P ++ [P[0]]` with `P = seq(PREV)`, and the entry it inserts is what it output. -/
def Obligations.DeferEffect : Prop :=
  ∀ s : State, DecReady s → PlaceOk s → s.dec.d.toNat < 4096 → s.dec.prevValid = true →
    ∃ t P s0, exec .defer s = .next t ∧ decSpells s s.dec.prev.toNat P ∧ P.head? = some s0 ∧
      Stored s t (P ++ [s0]) ∧ Inserted s t s.dec.d.toNat s0 ∧ decSpells t s.dec.d.toNat (P ++ [s0]) ∧
      t = { s with out := t.out, stk := t.stk, dec := t.dec, prefixMem := t.prefixMem, suffixMem := t.suffixMem }

/-- R186: BADCODE raises InputFormatError, with BAD_CODE beyond the next code and DEFER_NO_PREV at it. -/
def Obligations.BadcodeAborts : Prop :=
  ∀ (c : Code) (s : State), ∃ t, exec (.badcode c) s = .next t ∧ t.phase = .idle ∧
    (s.dec.d.toNat < c.toNat → exec (.abort .badCode) s = .next t ∧ t.regs.status = 0x050E#16) ∧
    (c.toNat = s.dec.d.toNat → exec (.abort .deferNoPrev) s = .next t ∧ t.regs.status = 0x060E#16)

/-- R189, R332: in a run, DECSTEP completes; it aborts exactly when too few bits are left or the code is of class
BADCODE, and otherwise consumes `Wd(D)` bits and stays in phase LZWDEC. -/
def Obligations.DecstepCompletes : Prop :=
  ∀ s : State, RunInv s → DecInv s → s.phase = .lzwdec →
    (8 * s.unp.plen.toNat < s.unp.bitpos.toNat + Wd s.dec.d.toNat →
      exec .decstep s = exec (.abort .prematureEnd) s) ∧
    (s.unp.bitpos.toNat + Wd s.dec.d.toNat ≤ 8 * s.unp.plen.toNat →
      (∀ c, decode s.decCtx (.code (payloadBits s (Wd s.dec.d.toNat))) = .ok (.badcode c) →
        ∃ t, exec .decstep s = .next t ∧ exec (.badcode c) (advanced s (Wd s.dec.d.toNat)) = .next t ∧
          t.phase = .idle ∧ statusErr t.regs.status = true) ∧
      ((∀ c, decode s.decCtx (.code (payloadBits s (Wd s.dec.d.toNat))) ≠ .ok (.badcode c)) →
        ∃ t, exec .decstep s = .next t ∧ t.phase = .lzwdec ∧ t.regs = s.regs ∧ t.lat = s.lat ∧
          t.unp.bitpos.toNat = s.unp.bitpos.toNat + Wd s.dec.d.toNat ∧
          t = { s with out := t.out, stk := t.stk, dec := t.dec, prefixMem := t.prefixMem, suffixMem := t.suffixMem,
                       unp := { s.unp with bitpos := t.unp.bitpos } }))

/-- R192, R189: within a span the decoder's width never falls, and rises exactly when an insertion makes `D` reach
a power of two `2^w` with `w <= 11`. -/
def Obligations.WidthMonotone : Prop :=
  ∀ s t : State, RunInv s → DecInv s → s.phase = .lzwdec → exec .decstep s = .next t → t.phase = .lzwdec →
    t.dec.dstate ≠ .cleared →
    s.dec.d.toNat ≤ t.dec.d.toNat ∧ t.dec.d.toNat ≤ s.dec.d.toNat + 1 ∧ s.decWidth ≤ t.decWidth ∧
    t.decWidth ≤ 12 ∧
    (s.decWidth < t.decWidth ↔ s.dec.d.toNat < t.dec.d.toNat ∧ ∃ w, w ≤ 11 ∧ t.dec.d.toNat = 2 ^ w)

/-! ### Encoder -/

/-- R232, R233, R235, R238: the register effects of ENCODER_INIT, DATA_SENT, MATCH_START and EXTEND. -/
def Obligations.EncoderRegisterSteps : Prop :=
  ∀ s : State,
    (∃ t, exec .encoderInit s = .next t ∧ t.enc.esize.toNat = s.lat.firstFree.toNat ∧
      t.enc.dsize.toNat = s.lat.firstFree.toNat ∧
      t = { s with enc := { s.enc with esize := t.enc.esize, dsize := t.enc.dsize, firstd := true },
                   pk := { s.pk with acc := 0, nacc := 0, oplen := 0 } }) ∧
    (∃ t, exec .dataSent s = .next t ∧
      (s.enc.firstd = false → s.enc.dsize.toNat < 4096 → t.enc.dsize.toNat = s.enc.dsize.toNat + 1) ∧
      (s.enc.firstd = true ∨ 4096 ≤ s.enc.dsize.toNat → t.enc.dsize = s.enc.dsize) ∧
      t = { s with enc := { s.enc with dsize := t.enc.dsize, firstd := false } }) ∧
    (∃ t, exec .matchStart s = .next t ∧ t.enc.cur.toNat = (s.inp.read 0).toNat ∧ t.enc.ipos = 1 ∧
      t = { s with enc := { s.enc with cur := t.enc.cur, ipos := 1 } }) ∧
    (∀ k, exec (.extend k) s = .next { s with enc := { s.enc with cur := k } })

/-- R236, R234, R244, R246 and R242: EMIT, E_CLEAR_START, E_END, E_DATA, FINAL and E_CLEAR_FULL each append one
code at the width `Wd(DSIZE)` that holds before the update the code itself causes. They complete without room to count
the bits too (log 19). -/
def Obligations.EmissionsAppendOneCode : Prop :=
  ∀ s : State, accClean s →
    (∀ c, ∃ t, exec (.emit c) s = .next t ∧ (packRoom s 12 → Appends s t c.toNat (Wd s.enc.dsize.toNat)) ∧
      t = { s with out := t.out, pk := t.pk }) ∧
    (∃ t, exec .eClearStart s = .next t ∧
      (packRoom s 12 → Appends s t s.lat.clear.toNat (Wd s.enc.dsize.toNat)) ∧
      t = { s with out := t.out, pk := t.pk }) ∧
    (∃ t, exec .eEnd s = .next t ∧ (packRoom s 12 → Appends s t s.lat.endCode.toNat (Wd s.enc.dsize.toNat)) ∧
      t = { s with out := t.out, pk := t.pk }) ∧
    (∀ c, ∃ t, exec (.eData c) s = .next t ∧ (packRoom s 12 → Appends s t c.toNat (Wd s.enc.dsize.toNat)) ∧
      exec .dataSent { s with out := t.out, pk := t.pk } = .next t) ∧
    (∃ t, exec .final s = .next t ∧ (packRoom s 12 → Appends s t s.enc.cur.toNat (Wd s.enc.dsize.toNat)) ∧
      exec .dataSent { s with out := t.out, pk := t.pk } = .next t) ∧
    (∃ t, exec .eClearFull s = .next t ∧ (packRoom s 12 → Appends s t s.lat.clear.toNat (Wd s.enc.dsize.toNat)) ∧
      t.enc.esize.toNat = s.lat.firstFree.toNat ∧ t.enc.dsize.toNat = s.lat.firstFree.toNat ∧
      t = { s with out := t.out, pk := t.pk,
                   enc := { s.enc with esize := t.enc.esize, dsize := t.enc.dsize, firstd := true } })

/-- R240, R242, R248: INSERT_E below the cap, at the insertion that fills the dictionary in either mode, and at the
cap. What the reset CLEAR appends is said where the packer has room to count it (log 19). -/
def Obligations.InsertEEffect : Prop :=
  ∀ (p : Code) (c : Byte) (s : State), s.enc.esize.toNat ≤ 4096 → accClean s →
    (s.enc.esize.toNat < 4095 ∨ (s.enc.esize.toNat = 4095 ∧ s.lat.nr = true) →
      ∃ t, exec (.insertE p c) s = .next t ∧ EntryStored s t p c ∧ t.enc.esize.toNat = s.enc.esize.toNat + 1 ∧
        t = { s with prefixMem := t.prefixMem, suffixMem := t.suffixMem,
                     enc := { s.enc with esize := t.enc.esize } }) ∧
    (s.enc.esize.toNat = 4095 → s.lat.nr = false →
      ∃ t, exec (.insertE p c) s = .next t ∧ EntryStored s t p c ∧
        (packRoom s 12 → Appends s t s.lat.clear.toNat (Wd s.enc.dsize.toNat)) ∧
        t.enc.esize.toNat = s.lat.firstFree.toNat ∧ t.enc.dsize.toNat = s.lat.firstFree.toNat ∧
        t = { s with out := t.out, pk := t.pk, prefixMem := t.prefixMem, suffixMem := t.suffixMem,
                     enc := { s.enc with esize := t.enc.esize, dsize := t.enc.dsize, firstd := true } }) ∧
    (s.enc.esize.toNat = 4096 → exec (.insertE p c) s = .next s)

/-- R239: MISS emits CUR as E_DATA does, inserts (CUR, c) as INSERT_E does, and starts the next match at `c`, which is
present in any sound dictionary because it is a literal. -/
def Obligations.MissEffect : Prop :=
  ∀ (c : Byte) (s : State), ∃ a b t, exec (.eData s.enc.cur) s = .next a ∧ exec (.insertE s.enc.cur c) a = .next b ∧
    exec (.miss c) s = .next t ∧ t.enc.cur.toNat = c.toNat ∧ t = { b with enc := { b.enc with cur := t.enc.cur } } ∧
    (c.toNat < 2 ^ s.lat.m.toNat → 2 ^ s.lat.m.toNat ≤ t.enc.esize.toNat →
      spellable s.lat.m.toNat t.enc.esize.toNat t.enc.cur.toNat)

/-- R237, R238, R51: with an index left, ENC_STEP extends the match when the dictionary holds it and otherwise
misses, and moves to the next index; with none left it applies FINAL. -/
def Obligations.EncStepEffect : Prop :=
  ∀ s : State,
    (s.enc.ipos.toNat < s.lat.n → s.lat.n < 2 ^ 32 → s.enc.esize.toNat ≤ 4096 →
      (∀ k, encEntry s (s.inp.read s.enc.ipos.toNat) k → ∃ t k', exec .encStep s = .next t ∧
        encEntry s (s.inp.read s.enc.ipos.toNat) k' ∧ t.enc.cur.toNat = k' ∧
        t.enc.ipos.toNat = s.enc.ipos.toNat + 1 ∧
        t = { s with enc := { s.enc with cur := t.enc.cur, ipos := t.enc.ipos } }) ∧
      ((∀ k, ¬encEntry s (s.inp.read s.enc.ipos.toNat) k) → ∃ b t,
        exec (.miss (s.inp.read s.enc.ipos.toNat)) s = .next b ∧ exec .encStep s = .next t ∧
        t.enc.ipos.toNat = s.enc.ipos.toNat + 1 ∧ t = { b with enc := { b.enc with ipos := t.enc.ipos } })) ∧
    (s.lat.n ≤ s.enc.ipos.toNat → ∃ t, exec .encStep s = .next t ∧ exec .final s = .next t)

/-- R249: in a run every code the encoder emits fits the width it is emitted with. -/
def Obligations.EmittedCodesFit : Prop :=
  ∀ s : State, RunInv s → EncInv s → s.phase = .encode →
    s.enc.cur.toNat < 2 ^ Wd s.enc.dsize.toNat ∧
    ∀ d, 2 ^ s.lat.m.toNat + 2 ≤ d → 2 ^ s.lat.m.toNat < 2 ^ Wd d ∧ 2 ^ s.lat.m.toNat + 1 < 2 ^ Wd d

/-! ### Whole-machine rules -/

/-- R35, R36, R37, R32: what the host can rely on is kept by every step, host accesses and RESET included. -/
def Obligations.HostInvKept : Prop :=
  ∀ s t : State, HostInv s → step s = .next t → HostInv t

/-- R42, R86, R340 to R342: what CHECK establishes holds until the transaction ends, whatever the host does. -/
def Obligations.RunInvKept : Prop :=
  ∀ s t : State, RunInv s → step s = .next t → RunInv t

/-- R43, R44, R46, R48: the decoder's dictionary stays sound, and no run meets a PREFIX chain that does not end at
a literal (R196). -/
def Obligations.DecInvKept : Prop :=
  ∀ s : State, RunInv s → DecInv s →
    (∀ t, step s = .next t → DecInv t) ∧ step s ≠ .fault .brokenDictionary

/-- R43, R44, R49, R50, R233, R247, R254: the encoder's dictionary, sizes and packer stay sound. -/
def Obligations.EncInvKept : Prop :=
  ∀ s t : State, HostInv s → RunInv s → EncInv s → step s = .next t → EncInv t

/-- R78, R86: no step stores a byte of OUT beyond its capacity. -/
def Obligations.OutStaysInCapacity : Prop :=
  ∀ s t : State, RunInv s → EncInv s → OutInv s → step s = .next t → OutInv t

/-- R197, R391: from phase LZWDEC a DECODE ends, in success or abort, within `floor(8 PLEN / 3)` decoder steps and
the block steps that close it, of which the model's schedule has at most three (its choice, log 7: R197 and R391 bound
the decoder steps only). -/
def Obligations.DecodeEnds : Prop :=
  ∀ s : State, RunInv s → DecInv s → s.phase = .lzwdec →
    ∃ t, runBlock (8 * s.unp.plen.toNat / 3 + 3) s = .next t ∧ t.phase = .idle

/-- R254, R332, R391: from phase ENCODE an ENCODE ends in success after one step for each index left and the block steps
that close it, of which the model's schedule has three (its choice, log 7: the rules bound the encoder's steps only). -/
def Obligations.EncodeEnds : Prop :=
  ∀ s : State, RunInv s → EncInv s → s.phase = .encode →
    ∃ t, runBlock (s.lat.n - s.enc.ipos.toNat + 3) s = .next t ∧ t.phase = .idle ∧
      t.regs.status = statusSuccess ∧ t.regs.inConsumed = s.lat.ilen

/-- R18, R318: the step level of a DECODE, run to completion, gives the transaction level's result, a function of
the latched inputs, the capacities and the bytes of IN alone: Ok, Err, or a refusal. -/
def Obligations.DecodeRefinesTransaction : Prop :=
  ∀ s : State, RunInv s → s.phase = .check → s.lat.op = .decode →
    ∃ k,
      (∀ raster consumed, txDecode s.params s.lat (inputBytes s) = .ok (raster, consumed) →
        ∃ t, runBlock k s = .next t ∧ t.phase = .idle ∧ t.regs.status = statusSuccess ∧
          (raster.length < 2 ^ 32 → t.regs.outLen.toNat = raster.length) ∧
          t.regs.inConsumed.toNat = consumed ∧ ∀ a (h : a < raster.length), t.out.read a = raster[a]) ∧
      (∀ x, txDecode s.params s.lat (inputBytes s) = .err x →
        ∃ t, runBlock k s = .next t ∧ t.phase = .idle ∧
          t.regs.status = statusAborted x ∧ t.regs.outLen = 0 ∧ t.regs.inConsumed = 0) ∧
      (txDecode s.params s.lat (inputBytes s) = .refused → runBlock k s = .refused .beyondCapacity)

/-- R18, R318: the same of an ENCODE. Of a framed length that 32 bits cannot hold nothing is said (log 19). -/
def Obligations.EncodeRefinesTransaction : Prop :=
  ∀ s : State, RunInv s → s.phase = .check → s.lat.op = .encode →
    ∃ k,
      (∀ framed, txEncode s.params s.lat (inputBytes s) = .ok framed →
        ∃ t, runBlock k s = .next t ∧ t.phase = .idle ∧ t.regs.status = statusSuccess ∧
          t.regs.inConsumed = s.lat.ilen ∧
          (framed.length < 2 ^ 32 → t.regs.outLen.toNat = framed.length ∧
            ∀ a (h : a < framed.length), t.out.read a = framed[a])) ∧
      (∀ x, txEncode s.params s.lat (inputBytes s) = .err x →
        ∃ t, runBlock k s = .next t ∧ t.phase = .idle ∧
          t.regs.status = statusAborted x ∧ t.regs.outLen = 0 ∧ t.regs.inConsumed = 0) ∧
      (txEncode s.params s.lat (inputBytes s) = .refused → runBlock k s = .refused .beyondCapacity)

/-- R251: for every accepted encode input, decoding the output with the same parameters and no interlacing succeeds
and gives the input back, in both dictionary-full modes, in every block whose capacities take that DECODE (R86 refuses
it in the others). -/
def Obligations.EncodeDecodeRoundTrip : Prop :=
  ∀ (caps caps' : Params) (l : Latched) (indices framed : List Byte), txEncode caps l indices = .ok framed →
    (overCapacity caps' indices.length framed.length indices.length = false →
      txDecode caps' { l with intl := false } framed = .ok (indices, framed.length)) ∧
    (overCapacity caps' indices.length framed.length indices.length = true →
      txDecode caps' { l with intl := false } framed = .refused)

/-- R38: nothing depends on DIAG. Whatever the sink has received, a step has the same outcome in every other field; and
what the sink has received only grows. Which records a step of the block writes is free (log 15). -/
def Obligations.DiagChangesNothing : Prop :=
  ∀ (s : State) (d : Diag),
    (∀ t, step s = .next t → (∃ l, t.diag.records = s.diag.records ++ l) ∧
      ∃ d', step (s.setDiag d) = .next (t.setDiag d')) ∧
    (∀ r, step s = .fault r → step (s.setDiag d) = .fault r) ∧
    (∀ r, step s = .refused r → step (s.setDiag d) = .refused r)
end

