-- ==== Sys2Proof/Laws/Memory.lean ====
section
/-! SUPPORT. The address spaces: a read after a write, and the canonical form. -/

namespace Sys2Proof.Machine

variable {w : Nat}

theorem findCell_putCell_same (a : Nat) (v : BitVec w) (l : List (Nat × BitVec w)) :
    findCell a (putCell a v l) = some v := by
  induction l with
  | nil => simp [putCell, findCell]
  | cons c rest ih =>
    obtain ⟨k, u⟩ := c
    rcases Nat.lt_trichotomy a k with h | rfl | h
    · simp [putCell, findCell, h]
    · simp [putCell, findCell]
    · have h1 : ¬a < k := by omega
      have h2 : a ≠ k := by omega
      simp [putCell, findCell, h1, h2, h2.symm, ih]

theorem findCell_putCell_other {a b : Nat} (hab : b ≠ a) (v : BitVec w) (l : List (Nat × BitVec w)) :
    findCell b (putCell a v l) = findCell b l := by
  induction l with
  | nil => simp [putCell, findCell, hab.symm]
  | cons c rest ih =>
    obtain ⟨k, u⟩ := c
    rcases Nat.lt_trichotomy a k with h | rfl | h
    · simp [putCell, findCell, h, hab.symm]
    · simp [putCell, findCell, hab.symm]
    · have h1 : ¬a < k := by omega
      have h2 : a ≠ k := by omega
      simp [putCell, findCell, h1, h2, ih]

theorem mem_putCell {a : Nat} {v : BitVec w} {l : List (Nat × BitVec w)} {p : Nat × BitVec w}
    (h : p ∈ putCell a v l) : p = (a, v) ∨ p ∈ l := by
  induction l with
  | nil => simpa [putCell] using h
  | cons c rest ih =>
    obtain ⟨k, u⟩ := c
    unfold putCell at h
    split at h
    · simpa using h
    · split at h
      · simp only [List.mem_cons] at h ⊢; tauto
      · simp only [List.mem_cons] at h ⊢
        rcases h with h | h
        · exact .inr (.inl h)
        · rcases ih h with h | h <;> tauto

/-- Writing keeps addresses strictly rising. -/
theorem putCell_sorted {a : Nat} {v : BitVec w} {l : List (Nat × BitVec w)}
    (h : l.Pairwise fun p q => p.1 < q.1) : (putCell a v l).Pairwise fun p q => p.1 < q.1 := by
  induction l with
  | nil => simp [putCell]
  | cons c rest ih =>
    obtain ⟨k, u⟩ := c
    rw [List.pairwise_cons] at h
    unfold putCell
    split
    next hlt =>
      refine List.pairwise_cons.2 ⟨fun p hp => ?_, List.pairwise_cons.2 h⟩
      rcases List.mem_cons.1 hp with rfl | hp
      · exact hlt
      · exact Nat.lt_trans hlt (h.1 p hp)
    next hnlt =>
      split
      next heq => subst heq; exact List.pairwise_cons.2 h
      next hne =>
        refine List.pairwise_cons.2 ⟨fun p hp => ?_, ih h.2⟩
        rcases mem_putCell hp with rfl | hp
        · simp; omega
        · exact h.1 p hp

namespace Memory

variable (mem : Memory w)

@[simp] theorem read_write_same (a : Nat) (v : BitVec w) : (mem.write a v).read a = v := by
  simp [read, write, findCell_putCell_same]

theorem read_write_other {a b : Nat} (h : b ≠ a) (v : BitVec w) : (mem.write a v).read b = mem.read b := by
  simp [read, write, findCell_putCell_other h, unwritten]

theorem read_write (a b : Nat) (v : BitVec w) :
    (mem.write a v).read b = if b = a then v else mem.read b := by
  split
  next h => subst h; simp
  next h => exact mem.read_write_other h v

@[simp] theorem write_seed (a : Nat) (v : BitVec w) : (mem.write a v).seed = mem.seed := rfl

@[simp] theorem unspecified_cells (seed : Nat) : (unspecified seed : Memory w).cells = [] := rfl

theorem mem_write {a : Nat} {v : BitVec w} {p : Nat × BitVec w} (h : p ∈ (mem.write a v).cells) :
    p = (a, v) ∨ p ∈ mem.cells := mem_putCell h

theorem unspecified_wf (seed : Nat) : (unspecified seed : Memory w).wf := by
  simp [wf]

variable {mem}

theorem write_wf (h : mem.wf) (a : Nat) (v : BitVec w) : (mem.write a v).wf := putCell_sorted h

theorem writeList_wf (h : mem.wf) (a : Nat) (vs : List (BitVec w)) : (mem.writeList a vs).wf := by
  induction vs generalizing mem a with
  | nil => exact h
  | cons v vs ih => exact ih (write_wf h a v) (a + 1)

/-- Below and beyond the written range nothing changes. -/
theorem read_writeList_outside (a : Nat) (vs : List (BitVec w)) {b : Nat} (h : b < a ∨ a + vs.length ≤ b) :
    (mem.writeList a vs).read b = mem.read b := by
  induction vs generalizing mem a with
  | nil => rfl
  | cons v vs ih =>
    simp only [List.length_cons] at h
    rw [writeList, ih (a + 1) (by omega), read_write_other _ (by omega)]

/-- The written range reads back. -/
theorem read_writeList_inside (a : Nat) (vs : List (BitVec w)) (j : Nat) (h : j < vs.length) :
    (mem.writeList a vs).read (a + j) = vs[j] := by
  induction vs generalizing mem a j with
  | nil => simp at h
  | cons v vs ih =>
    rw [writeList]
    cases j with
    | zero => rw [read_writeList_outside (a + 1) vs (by omega)]; simp
    | succ j =>
      have := ih (mem := mem.write a v) (a + 1) j (by simpa using h)
      simpa [Nat.add_assoc, Nat.add_comm 1 j] using this

end Memory

/-- Every memory of the reset state is in canonical form. -/
theorem reset_memories_wf : State.reset.inp.wf ∧ State.reset.out.wf ∧ State.reset.pay.wf ∧ State.reset.stk.wf ∧
    State.reset.prefixMem.wf ∧ State.reset.suffixMem.wf :=
  ⟨Memory.unspecified_wf _, Memory.unspecified_wf _, Memory.unspecified_wf _, Memory.unspecified_wf _,
    Memory.unspecified_wf _, Memory.unspecified_wf _⟩

end Sys2Proof.Machine
end

