-- ==== Sys2Proof/Laws/State.lean ====
section
/-! SUPPORT. What each update of State leaves in each field. -/

namespace Sys2Proof.Machine.State

variable (s : State)

@[simp] theorem setRegs_params (x : HostRegs) : (s.setRegs x).params = s.params := rfl
@[simp] theorem setRegs_regs (x : HostRegs) : (s.setRegs x).regs = x := rfl
@[simp] theorem setRegs_phase (x : HostRegs) : (s.setRegs x).phase = s.phase := rfl
@[simp] theorem setRegs_lat (x : HostRegs) : (s.setRegs x).lat = s.lat := rfl
@[simp] theorem setRegs_dec (x : HostRegs) : (s.setRegs x).dec = s.dec := rfl
@[simp] theorem setRegs_unp (x : HostRegs) : (s.setRegs x).unp = s.unp := rfl
@[simp] theorem setRegs_pk (x : HostRegs) : (s.setRegs x).pk = s.pk := rfl
@[simp] theorem setRegs_enc (x : HostRegs) : (s.setRegs x).enc = s.enc := rfl
@[simp] theorem setRegs_inp (x : HostRegs) : (s.setRegs x).inp = s.inp := rfl
@[simp] theorem setRegs_out (x : HostRegs) : (s.setRegs x).out = s.out := rfl
@[simp] theorem setRegs_pay (x : HostRegs) : (s.setRegs x).pay = s.pay := rfl
@[simp] theorem setRegs_stk (x : HostRegs) : (s.setRegs x).stk = s.stk := rfl
@[simp] theorem setRegs_prefixMem (x : HostRegs) : (s.setRegs x).prefixMem = s.prefixMem := rfl
@[simp] theorem setRegs_suffixMem (x : HostRegs) : (s.setRegs x).suffixMem = s.suffixMem := rfl
@[simp] theorem setRegs_host (x : HostRegs) : (s.setRegs x).host = s.host := rfl
@[simp] theorem setRegs_rdata (x : HostRegs) : (s.setRegs x).rdata = s.rdata := rfl
@[simp] theorem setRegs_ret (x : HostRegs) : (s.setRegs x).ret = s.ret := rfl
@[simp] theorem setRegs_diag (x : HostRegs) : (s.setRegs x).diag = s.diag := rfl
@[simp] theorem setRegs_free (x : HostRegs) : (s.setRegs x).free = s.free := rfl

@[simp] theorem setPhase_params (x : Phase) : (s.setPhase x).params = s.params := rfl
@[simp] theorem setPhase_regs (x : Phase) : (s.setPhase x).regs = s.regs := rfl
@[simp] theorem setPhase_phase (x : Phase) : (s.setPhase x).phase = x := rfl
@[simp] theorem setPhase_lat (x : Phase) : (s.setPhase x).lat = s.lat := rfl
@[simp] theorem setPhase_dec (x : Phase) : (s.setPhase x).dec = s.dec := rfl
@[simp] theorem setPhase_unp (x : Phase) : (s.setPhase x).unp = s.unp := rfl
@[simp] theorem setPhase_pk (x : Phase) : (s.setPhase x).pk = s.pk := rfl
@[simp] theorem setPhase_enc (x : Phase) : (s.setPhase x).enc = s.enc := rfl
@[simp] theorem setPhase_inp (x : Phase) : (s.setPhase x).inp = s.inp := rfl
@[simp] theorem setPhase_out (x : Phase) : (s.setPhase x).out = s.out := rfl
@[simp] theorem setPhase_pay (x : Phase) : (s.setPhase x).pay = s.pay := rfl
@[simp] theorem setPhase_stk (x : Phase) : (s.setPhase x).stk = s.stk := rfl
@[simp] theorem setPhase_prefixMem (x : Phase) : (s.setPhase x).prefixMem = s.prefixMem := rfl
@[simp] theorem setPhase_suffixMem (x : Phase) : (s.setPhase x).suffixMem = s.suffixMem := rfl
@[simp] theorem setPhase_host (x : Phase) : (s.setPhase x).host = s.host := rfl
@[simp] theorem setPhase_rdata (x : Phase) : (s.setPhase x).rdata = s.rdata := rfl
@[simp] theorem setPhase_ret (x : Phase) : (s.setPhase x).ret = s.ret := rfl
@[simp] theorem setPhase_diag (x : Phase) : (s.setPhase x).diag = s.diag := rfl
@[simp] theorem setPhase_free (x : Phase) : (s.setPhase x).free = s.free := rfl

@[simp] theorem setLat_params (x : Latched) : (s.setLat x).params = s.params := rfl
@[simp] theorem setLat_regs (x : Latched) : (s.setLat x).regs = s.regs := rfl
@[simp] theorem setLat_phase (x : Latched) : (s.setLat x).phase = s.phase := rfl
@[simp] theorem setLat_lat (x : Latched) : (s.setLat x).lat = x := rfl
@[simp] theorem setLat_dec (x : Latched) : (s.setLat x).dec = s.dec := rfl
@[simp] theorem setLat_unp (x : Latched) : (s.setLat x).unp = s.unp := rfl
@[simp] theorem setLat_pk (x : Latched) : (s.setLat x).pk = s.pk := rfl
@[simp] theorem setLat_enc (x : Latched) : (s.setLat x).enc = s.enc := rfl
@[simp] theorem setLat_inp (x : Latched) : (s.setLat x).inp = s.inp := rfl
@[simp] theorem setLat_out (x : Latched) : (s.setLat x).out = s.out := rfl
@[simp] theorem setLat_pay (x : Latched) : (s.setLat x).pay = s.pay := rfl
@[simp] theorem setLat_stk (x : Latched) : (s.setLat x).stk = s.stk := rfl
@[simp] theorem setLat_prefixMem (x : Latched) : (s.setLat x).prefixMem = s.prefixMem := rfl
@[simp] theorem setLat_suffixMem (x : Latched) : (s.setLat x).suffixMem = s.suffixMem := rfl
@[simp] theorem setLat_host (x : Latched) : (s.setLat x).host = s.host := rfl
@[simp] theorem setLat_rdata (x : Latched) : (s.setLat x).rdata = s.rdata := rfl
@[simp] theorem setLat_ret (x : Latched) : (s.setLat x).ret = s.ret := rfl
@[simp] theorem setLat_diag (x : Latched) : (s.setLat x).diag = s.diag := rfl
@[simp] theorem setLat_free (x : Latched) : (s.setLat x).free = s.free := rfl

@[simp] theorem setDec_params (x : DecRegs) : (s.setDec x).params = s.params := rfl
@[simp] theorem setDec_regs (x : DecRegs) : (s.setDec x).regs = s.regs := rfl
@[simp] theorem setDec_phase (x : DecRegs) : (s.setDec x).phase = s.phase := rfl
@[simp] theorem setDec_lat (x : DecRegs) : (s.setDec x).lat = s.lat := rfl
@[simp] theorem setDec_dec (x : DecRegs) : (s.setDec x).dec = x := rfl
@[simp] theorem setDec_unp (x : DecRegs) : (s.setDec x).unp = s.unp := rfl
@[simp] theorem setDec_pk (x : DecRegs) : (s.setDec x).pk = s.pk := rfl
@[simp] theorem setDec_enc (x : DecRegs) : (s.setDec x).enc = s.enc := rfl
@[simp] theorem setDec_inp (x : DecRegs) : (s.setDec x).inp = s.inp := rfl
@[simp] theorem setDec_out (x : DecRegs) : (s.setDec x).out = s.out := rfl
@[simp] theorem setDec_pay (x : DecRegs) : (s.setDec x).pay = s.pay := rfl
@[simp] theorem setDec_stk (x : DecRegs) : (s.setDec x).stk = s.stk := rfl
@[simp] theorem setDec_prefixMem (x : DecRegs) : (s.setDec x).prefixMem = s.prefixMem := rfl
@[simp] theorem setDec_suffixMem (x : DecRegs) : (s.setDec x).suffixMem = s.suffixMem := rfl
@[simp] theorem setDec_host (x : DecRegs) : (s.setDec x).host = s.host := rfl
@[simp] theorem setDec_rdata (x : DecRegs) : (s.setDec x).rdata = s.rdata := rfl
@[simp] theorem setDec_ret (x : DecRegs) : (s.setDec x).ret = s.ret := rfl
@[simp] theorem setDec_diag (x : DecRegs) : (s.setDec x).diag = s.diag := rfl
@[simp] theorem setDec_free (x : DecRegs) : (s.setDec x).free = s.free := rfl

@[simp] theorem setUnp_params (x : UnpRegs) : (s.setUnp x).params = s.params := rfl
@[simp] theorem setUnp_regs (x : UnpRegs) : (s.setUnp x).regs = s.regs := rfl
@[simp] theorem setUnp_phase (x : UnpRegs) : (s.setUnp x).phase = s.phase := rfl
@[simp] theorem setUnp_lat (x : UnpRegs) : (s.setUnp x).lat = s.lat := rfl
@[simp] theorem setUnp_dec (x : UnpRegs) : (s.setUnp x).dec = s.dec := rfl
@[simp] theorem setUnp_unp (x : UnpRegs) : (s.setUnp x).unp = x := rfl
@[simp] theorem setUnp_pk (x : UnpRegs) : (s.setUnp x).pk = s.pk := rfl
@[simp] theorem setUnp_enc (x : UnpRegs) : (s.setUnp x).enc = s.enc := rfl
@[simp] theorem setUnp_inp (x : UnpRegs) : (s.setUnp x).inp = s.inp := rfl
@[simp] theorem setUnp_out (x : UnpRegs) : (s.setUnp x).out = s.out := rfl
@[simp] theorem setUnp_pay (x : UnpRegs) : (s.setUnp x).pay = s.pay := rfl
@[simp] theorem setUnp_stk (x : UnpRegs) : (s.setUnp x).stk = s.stk := rfl
@[simp] theorem setUnp_prefixMem (x : UnpRegs) : (s.setUnp x).prefixMem = s.prefixMem := rfl
@[simp] theorem setUnp_suffixMem (x : UnpRegs) : (s.setUnp x).suffixMem = s.suffixMem := rfl
@[simp] theorem setUnp_host (x : UnpRegs) : (s.setUnp x).host = s.host := rfl
@[simp] theorem setUnp_rdata (x : UnpRegs) : (s.setUnp x).rdata = s.rdata := rfl
@[simp] theorem setUnp_ret (x : UnpRegs) : (s.setUnp x).ret = s.ret := rfl
@[simp] theorem setUnp_diag (x : UnpRegs) : (s.setUnp x).diag = s.diag := rfl
@[simp] theorem setUnp_free (x : UnpRegs) : (s.setUnp x).free = s.free := rfl

@[simp] theorem setPk_params (x : PackRegs) : (s.setPk x).params = s.params := rfl
@[simp] theorem setPk_regs (x : PackRegs) : (s.setPk x).regs = s.regs := rfl
@[simp] theorem setPk_phase (x : PackRegs) : (s.setPk x).phase = s.phase := rfl
@[simp] theorem setPk_lat (x : PackRegs) : (s.setPk x).lat = s.lat := rfl
@[simp] theorem setPk_dec (x : PackRegs) : (s.setPk x).dec = s.dec := rfl
@[simp] theorem setPk_unp (x : PackRegs) : (s.setPk x).unp = s.unp := rfl
@[simp] theorem setPk_pk (x : PackRegs) : (s.setPk x).pk = x := rfl
@[simp] theorem setPk_enc (x : PackRegs) : (s.setPk x).enc = s.enc := rfl
@[simp] theorem setPk_inp (x : PackRegs) : (s.setPk x).inp = s.inp := rfl
@[simp] theorem setPk_out (x : PackRegs) : (s.setPk x).out = s.out := rfl
@[simp] theorem setPk_pay (x : PackRegs) : (s.setPk x).pay = s.pay := rfl
@[simp] theorem setPk_stk (x : PackRegs) : (s.setPk x).stk = s.stk := rfl
@[simp] theorem setPk_prefixMem (x : PackRegs) : (s.setPk x).prefixMem = s.prefixMem := rfl
@[simp] theorem setPk_suffixMem (x : PackRegs) : (s.setPk x).suffixMem = s.suffixMem := rfl
@[simp] theorem setPk_host (x : PackRegs) : (s.setPk x).host = s.host := rfl
@[simp] theorem setPk_rdata (x : PackRegs) : (s.setPk x).rdata = s.rdata := rfl
@[simp] theorem setPk_ret (x : PackRegs) : (s.setPk x).ret = s.ret := rfl
@[simp] theorem setPk_diag (x : PackRegs) : (s.setPk x).diag = s.diag := rfl
@[simp] theorem setPk_free (x : PackRegs) : (s.setPk x).free = s.free := rfl

@[simp] theorem setEnc_params (x : EncRegs) : (s.setEnc x).params = s.params := rfl
@[simp] theorem setEnc_regs (x : EncRegs) : (s.setEnc x).regs = s.regs := rfl
@[simp] theorem setEnc_phase (x : EncRegs) : (s.setEnc x).phase = s.phase := rfl
@[simp] theorem setEnc_lat (x : EncRegs) : (s.setEnc x).lat = s.lat := rfl
@[simp] theorem setEnc_dec (x : EncRegs) : (s.setEnc x).dec = s.dec := rfl
@[simp] theorem setEnc_unp (x : EncRegs) : (s.setEnc x).unp = s.unp := rfl
@[simp] theorem setEnc_pk (x : EncRegs) : (s.setEnc x).pk = s.pk := rfl
@[simp] theorem setEnc_enc (x : EncRegs) : (s.setEnc x).enc = x := rfl
@[simp] theorem setEnc_inp (x : EncRegs) : (s.setEnc x).inp = s.inp := rfl
@[simp] theorem setEnc_out (x : EncRegs) : (s.setEnc x).out = s.out := rfl
@[simp] theorem setEnc_pay (x : EncRegs) : (s.setEnc x).pay = s.pay := rfl
@[simp] theorem setEnc_stk (x : EncRegs) : (s.setEnc x).stk = s.stk := rfl
@[simp] theorem setEnc_prefixMem (x : EncRegs) : (s.setEnc x).prefixMem = s.prefixMem := rfl
@[simp] theorem setEnc_suffixMem (x : EncRegs) : (s.setEnc x).suffixMem = s.suffixMem := rfl
@[simp] theorem setEnc_host (x : EncRegs) : (s.setEnc x).host = s.host := rfl
@[simp] theorem setEnc_rdata (x : EncRegs) : (s.setEnc x).rdata = s.rdata := rfl
@[simp] theorem setEnc_ret (x : EncRegs) : (s.setEnc x).ret = s.ret := rfl
@[simp] theorem setEnc_diag (x : EncRegs) : (s.setEnc x).diag = s.diag := rfl
@[simp] theorem setEnc_free (x : EncRegs) : (s.setEnc x).free = s.free := rfl

@[simp] theorem setInp_params (x : Memory 8) : (s.setInp x).params = s.params := rfl
@[simp] theorem setInp_regs (x : Memory 8) : (s.setInp x).regs = s.regs := rfl
@[simp] theorem setInp_phase (x : Memory 8) : (s.setInp x).phase = s.phase := rfl
@[simp] theorem setInp_lat (x : Memory 8) : (s.setInp x).lat = s.lat := rfl
@[simp] theorem setInp_dec (x : Memory 8) : (s.setInp x).dec = s.dec := rfl
@[simp] theorem setInp_unp (x : Memory 8) : (s.setInp x).unp = s.unp := rfl
@[simp] theorem setInp_pk (x : Memory 8) : (s.setInp x).pk = s.pk := rfl
@[simp] theorem setInp_enc (x : Memory 8) : (s.setInp x).enc = s.enc := rfl
@[simp] theorem setInp_inp (x : Memory 8) : (s.setInp x).inp = x := rfl
@[simp] theorem setInp_out (x : Memory 8) : (s.setInp x).out = s.out := rfl
@[simp] theorem setInp_pay (x : Memory 8) : (s.setInp x).pay = s.pay := rfl
@[simp] theorem setInp_stk (x : Memory 8) : (s.setInp x).stk = s.stk := rfl
@[simp] theorem setInp_prefixMem (x : Memory 8) : (s.setInp x).prefixMem = s.prefixMem := rfl
@[simp] theorem setInp_suffixMem (x : Memory 8) : (s.setInp x).suffixMem = s.suffixMem := rfl
@[simp] theorem setInp_host (x : Memory 8) : (s.setInp x).host = s.host := rfl
@[simp] theorem setInp_rdata (x : Memory 8) : (s.setInp x).rdata = s.rdata := rfl
@[simp] theorem setInp_ret (x : Memory 8) : (s.setInp x).ret = s.ret := rfl
@[simp] theorem setInp_diag (x : Memory 8) : (s.setInp x).diag = s.diag := rfl
@[simp] theorem setInp_free (x : Memory 8) : (s.setInp x).free = s.free := rfl

@[simp] theorem setOut_params (x : Memory 8) : (s.setOut x).params = s.params := rfl
@[simp] theorem setOut_regs (x : Memory 8) : (s.setOut x).regs = s.regs := rfl
@[simp] theorem setOut_phase (x : Memory 8) : (s.setOut x).phase = s.phase := rfl
@[simp] theorem setOut_lat (x : Memory 8) : (s.setOut x).lat = s.lat := rfl
@[simp] theorem setOut_dec (x : Memory 8) : (s.setOut x).dec = s.dec := rfl
@[simp] theorem setOut_unp (x : Memory 8) : (s.setOut x).unp = s.unp := rfl
@[simp] theorem setOut_pk (x : Memory 8) : (s.setOut x).pk = s.pk := rfl
@[simp] theorem setOut_enc (x : Memory 8) : (s.setOut x).enc = s.enc := rfl
@[simp] theorem setOut_inp (x : Memory 8) : (s.setOut x).inp = s.inp := rfl
@[simp] theorem setOut_out (x : Memory 8) : (s.setOut x).out = x := rfl
@[simp] theorem setOut_pay (x : Memory 8) : (s.setOut x).pay = s.pay := rfl
@[simp] theorem setOut_stk (x : Memory 8) : (s.setOut x).stk = s.stk := rfl
@[simp] theorem setOut_prefixMem (x : Memory 8) : (s.setOut x).prefixMem = s.prefixMem := rfl
@[simp] theorem setOut_suffixMem (x : Memory 8) : (s.setOut x).suffixMem = s.suffixMem := rfl
@[simp] theorem setOut_host (x : Memory 8) : (s.setOut x).host = s.host := rfl
@[simp] theorem setOut_rdata (x : Memory 8) : (s.setOut x).rdata = s.rdata := rfl
@[simp] theorem setOut_ret (x : Memory 8) : (s.setOut x).ret = s.ret := rfl
@[simp] theorem setOut_diag (x : Memory 8) : (s.setOut x).diag = s.diag := rfl
@[simp] theorem setOut_free (x : Memory 8) : (s.setOut x).free = s.free := rfl

@[simp] theorem setPay_params (x : Memory 8) : (s.setPay x).params = s.params := rfl
@[simp] theorem setPay_regs (x : Memory 8) : (s.setPay x).regs = s.regs := rfl
@[simp] theorem setPay_phase (x : Memory 8) : (s.setPay x).phase = s.phase := rfl
@[simp] theorem setPay_lat (x : Memory 8) : (s.setPay x).lat = s.lat := rfl
@[simp] theorem setPay_dec (x : Memory 8) : (s.setPay x).dec = s.dec := rfl
@[simp] theorem setPay_unp (x : Memory 8) : (s.setPay x).unp = s.unp := rfl
@[simp] theorem setPay_pk (x : Memory 8) : (s.setPay x).pk = s.pk := rfl
@[simp] theorem setPay_enc (x : Memory 8) : (s.setPay x).enc = s.enc := rfl
@[simp] theorem setPay_inp (x : Memory 8) : (s.setPay x).inp = s.inp := rfl
@[simp] theorem setPay_out (x : Memory 8) : (s.setPay x).out = s.out := rfl
@[simp] theorem setPay_pay (x : Memory 8) : (s.setPay x).pay = x := rfl
@[simp] theorem setPay_stk (x : Memory 8) : (s.setPay x).stk = s.stk := rfl
@[simp] theorem setPay_prefixMem (x : Memory 8) : (s.setPay x).prefixMem = s.prefixMem := rfl
@[simp] theorem setPay_suffixMem (x : Memory 8) : (s.setPay x).suffixMem = s.suffixMem := rfl
@[simp] theorem setPay_host (x : Memory 8) : (s.setPay x).host = s.host := rfl
@[simp] theorem setPay_rdata (x : Memory 8) : (s.setPay x).rdata = s.rdata := rfl
@[simp] theorem setPay_ret (x : Memory 8) : (s.setPay x).ret = s.ret := rfl
@[simp] theorem setPay_diag (x : Memory 8) : (s.setPay x).diag = s.diag := rfl
@[simp] theorem setPay_free (x : Memory 8) : (s.setPay x).free = s.free := rfl

@[simp] theorem setStk_params (x : Memory 8) : (s.setStk x).params = s.params := rfl
@[simp] theorem setStk_regs (x : Memory 8) : (s.setStk x).regs = s.regs := rfl
@[simp] theorem setStk_phase (x : Memory 8) : (s.setStk x).phase = s.phase := rfl
@[simp] theorem setStk_lat (x : Memory 8) : (s.setStk x).lat = s.lat := rfl
@[simp] theorem setStk_dec (x : Memory 8) : (s.setStk x).dec = s.dec := rfl
@[simp] theorem setStk_unp (x : Memory 8) : (s.setStk x).unp = s.unp := rfl
@[simp] theorem setStk_pk (x : Memory 8) : (s.setStk x).pk = s.pk := rfl
@[simp] theorem setStk_enc (x : Memory 8) : (s.setStk x).enc = s.enc := rfl
@[simp] theorem setStk_inp (x : Memory 8) : (s.setStk x).inp = s.inp := rfl
@[simp] theorem setStk_out (x : Memory 8) : (s.setStk x).out = s.out := rfl
@[simp] theorem setStk_pay (x : Memory 8) : (s.setStk x).pay = s.pay := rfl
@[simp] theorem setStk_stk (x : Memory 8) : (s.setStk x).stk = x := rfl
@[simp] theorem setStk_prefixMem (x : Memory 8) : (s.setStk x).prefixMem = s.prefixMem := rfl
@[simp] theorem setStk_suffixMem (x : Memory 8) : (s.setStk x).suffixMem = s.suffixMem := rfl
@[simp] theorem setStk_host (x : Memory 8) : (s.setStk x).host = s.host := rfl
@[simp] theorem setStk_rdata (x : Memory 8) : (s.setStk x).rdata = s.rdata := rfl
@[simp] theorem setStk_ret (x : Memory 8) : (s.setStk x).ret = s.ret := rfl
@[simp] theorem setStk_diag (x : Memory 8) : (s.setStk x).diag = s.diag := rfl
@[simp] theorem setStk_free (x : Memory 8) : (s.setStk x).free = s.free := rfl

@[simp] theorem setPrefix_params (x : Memory 12) : (s.setPrefix x).params = s.params := rfl
@[simp] theorem setPrefix_regs (x : Memory 12) : (s.setPrefix x).regs = s.regs := rfl
@[simp] theorem setPrefix_phase (x : Memory 12) : (s.setPrefix x).phase = s.phase := rfl
@[simp] theorem setPrefix_lat (x : Memory 12) : (s.setPrefix x).lat = s.lat := rfl
@[simp] theorem setPrefix_dec (x : Memory 12) : (s.setPrefix x).dec = s.dec := rfl
@[simp] theorem setPrefix_unp (x : Memory 12) : (s.setPrefix x).unp = s.unp := rfl
@[simp] theorem setPrefix_pk (x : Memory 12) : (s.setPrefix x).pk = s.pk := rfl
@[simp] theorem setPrefix_enc (x : Memory 12) : (s.setPrefix x).enc = s.enc := rfl
@[simp] theorem setPrefix_inp (x : Memory 12) : (s.setPrefix x).inp = s.inp := rfl
@[simp] theorem setPrefix_out (x : Memory 12) : (s.setPrefix x).out = s.out := rfl
@[simp] theorem setPrefix_pay (x : Memory 12) : (s.setPrefix x).pay = s.pay := rfl
@[simp] theorem setPrefix_stk (x : Memory 12) : (s.setPrefix x).stk = s.stk := rfl
@[simp] theorem setPrefix_prefixMem (x : Memory 12) : (s.setPrefix x).prefixMem = x := rfl
@[simp] theorem setPrefix_suffixMem (x : Memory 12) : (s.setPrefix x).suffixMem = s.suffixMem := rfl
@[simp] theorem setPrefix_host (x : Memory 12) : (s.setPrefix x).host = s.host := rfl
@[simp] theorem setPrefix_rdata (x : Memory 12) : (s.setPrefix x).rdata = s.rdata := rfl
@[simp] theorem setPrefix_ret (x : Memory 12) : (s.setPrefix x).ret = s.ret := rfl
@[simp] theorem setPrefix_diag (x : Memory 12) : (s.setPrefix x).diag = s.diag := rfl
@[simp] theorem setPrefix_free (x : Memory 12) : (s.setPrefix x).free = s.free := rfl

@[simp] theorem setSuffix_params (x : Memory 8) : (s.setSuffix x).params = s.params := rfl
@[simp] theorem setSuffix_regs (x : Memory 8) : (s.setSuffix x).regs = s.regs := rfl
@[simp] theorem setSuffix_phase (x : Memory 8) : (s.setSuffix x).phase = s.phase := rfl
@[simp] theorem setSuffix_lat (x : Memory 8) : (s.setSuffix x).lat = s.lat := rfl
@[simp] theorem setSuffix_dec (x : Memory 8) : (s.setSuffix x).dec = s.dec := rfl
@[simp] theorem setSuffix_unp (x : Memory 8) : (s.setSuffix x).unp = s.unp := rfl
@[simp] theorem setSuffix_pk (x : Memory 8) : (s.setSuffix x).pk = s.pk := rfl
@[simp] theorem setSuffix_enc (x : Memory 8) : (s.setSuffix x).enc = s.enc := rfl
@[simp] theorem setSuffix_inp (x : Memory 8) : (s.setSuffix x).inp = s.inp := rfl
@[simp] theorem setSuffix_out (x : Memory 8) : (s.setSuffix x).out = s.out := rfl
@[simp] theorem setSuffix_pay (x : Memory 8) : (s.setSuffix x).pay = s.pay := rfl
@[simp] theorem setSuffix_stk (x : Memory 8) : (s.setSuffix x).stk = s.stk := rfl
@[simp] theorem setSuffix_prefixMem (x : Memory 8) : (s.setSuffix x).prefixMem = s.prefixMem := rfl
@[simp] theorem setSuffix_suffixMem (x : Memory 8) : (s.setSuffix x).suffixMem = x := rfl
@[simp] theorem setSuffix_host (x : Memory 8) : (s.setSuffix x).host = s.host := rfl
@[simp] theorem setSuffix_rdata (x : Memory 8) : (s.setSuffix x).rdata = s.rdata := rfl
@[simp] theorem setSuffix_ret (x : Memory 8) : (s.setSuffix x).ret = s.ret := rfl
@[simp] theorem setSuffix_diag (x : Memory 8) : (s.setSuffix x).diag = s.diag := rfl
@[simp] theorem setSuffix_free (x : Memory 8) : (s.setSuffix x).free = s.free := rfl

@[simp] theorem setHost_params (x : List HostAccess) : (s.setHost x).params = s.params := rfl
@[simp] theorem setHost_regs (x : List HostAccess) : (s.setHost x).regs = s.regs := rfl
@[simp] theorem setHost_phase (x : List HostAccess) : (s.setHost x).phase = s.phase := rfl
@[simp] theorem setHost_lat (x : List HostAccess) : (s.setHost x).lat = s.lat := rfl
@[simp] theorem setHost_dec (x : List HostAccess) : (s.setHost x).dec = s.dec := rfl
@[simp] theorem setHost_unp (x : List HostAccess) : (s.setHost x).unp = s.unp := rfl
@[simp] theorem setHost_pk (x : List HostAccess) : (s.setHost x).pk = s.pk := rfl
@[simp] theorem setHost_enc (x : List HostAccess) : (s.setHost x).enc = s.enc := rfl
@[simp] theorem setHost_inp (x : List HostAccess) : (s.setHost x).inp = s.inp := rfl
@[simp] theorem setHost_out (x : List HostAccess) : (s.setHost x).out = s.out := rfl
@[simp] theorem setHost_pay (x : List HostAccess) : (s.setHost x).pay = s.pay := rfl
@[simp] theorem setHost_stk (x : List HostAccess) : (s.setHost x).stk = s.stk := rfl
@[simp] theorem setHost_prefixMem (x : List HostAccess) : (s.setHost x).prefixMem = s.prefixMem := rfl
@[simp] theorem setHost_suffixMem (x : List HostAccess) : (s.setHost x).suffixMem = s.suffixMem := rfl
@[simp] theorem setHost_host (x : List HostAccess) : (s.setHost x).host = x := rfl
@[simp] theorem setHost_rdata (x : List HostAccess) : (s.setHost x).rdata = s.rdata := rfl
@[simp] theorem setHost_ret (x : List HostAccess) : (s.setHost x).ret = s.ret := rfl
@[simp] theorem setHost_diag (x : List HostAccess) : (s.setHost x).diag = s.diag := rfl
@[simp] theorem setHost_free (x : List HostAccess) : (s.setHost x).free = s.free := rfl

@[simp] theorem setRdata_params (x : Word) : (s.setRdata x).params = s.params := rfl
@[simp] theorem setRdata_regs (x : Word) : (s.setRdata x).regs = s.regs := rfl
@[simp] theorem setRdata_phase (x : Word) : (s.setRdata x).phase = s.phase := rfl
@[simp] theorem setRdata_lat (x : Word) : (s.setRdata x).lat = s.lat := rfl
@[simp] theorem setRdata_dec (x : Word) : (s.setRdata x).dec = s.dec := rfl
@[simp] theorem setRdata_unp (x : Word) : (s.setRdata x).unp = s.unp := rfl
@[simp] theorem setRdata_pk (x : Word) : (s.setRdata x).pk = s.pk := rfl
@[simp] theorem setRdata_enc (x : Word) : (s.setRdata x).enc = s.enc := rfl
@[simp] theorem setRdata_inp (x : Word) : (s.setRdata x).inp = s.inp := rfl
@[simp] theorem setRdata_out (x : Word) : (s.setRdata x).out = s.out := rfl
@[simp] theorem setRdata_pay (x : Word) : (s.setRdata x).pay = s.pay := rfl
@[simp] theorem setRdata_stk (x : Word) : (s.setRdata x).stk = s.stk := rfl
@[simp] theorem setRdata_prefixMem (x : Word) : (s.setRdata x).prefixMem = s.prefixMem := rfl
@[simp] theorem setRdata_suffixMem (x : Word) : (s.setRdata x).suffixMem = s.suffixMem := rfl
@[simp] theorem setRdata_host (x : Word) : (s.setRdata x).host = s.host := rfl
@[simp] theorem setRdata_rdata (x : Word) : (s.setRdata x).rdata = x := rfl
@[simp] theorem setRdata_ret (x : Word) : (s.setRdata x).ret = s.ret := rfl
@[simp] theorem setRdata_diag (x : Word) : (s.setRdata x).diag = s.diag := rfl
@[simp] theorem setRdata_free (x : Word) : (s.setRdata x).free = s.free := rfl

@[simp] theorem setRet_params (x : Nat) : (s.setRet x).params = s.params := rfl
@[simp] theorem setRet_regs (x : Nat) : (s.setRet x).regs = s.regs := rfl
@[simp] theorem setRet_phase (x : Nat) : (s.setRet x).phase = s.phase := rfl
@[simp] theorem setRet_lat (x : Nat) : (s.setRet x).lat = s.lat := rfl
@[simp] theorem setRet_dec (x : Nat) : (s.setRet x).dec = s.dec := rfl
@[simp] theorem setRet_unp (x : Nat) : (s.setRet x).unp = s.unp := rfl
@[simp] theorem setRet_pk (x : Nat) : (s.setRet x).pk = s.pk := rfl
@[simp] theorem setRet_enc (x : Nat) : (s.setRet x).enc = s.enc := rfl
@[simp] theorem setRet_inp (x : Nat) : (s.setRet x).inp = s.inp := rfl
@[simp] theorem setRet_out (x : Nat) : (s.setRet x).out = s.out := rfl
@[simp] theorem setRet_pay (x : Nat) : (s.setRet x).pay = s.pay := rfl
@[simp] theorem setRet_stk (x : Nat) : (s.setRet x).stk = s.stk := rfl
@[simp] theorem setRet_prefixMem (x : Nat) : (s.setRet x).prefixMem = s.prefixMem := rfl
@[simp] theorem setRet_suffixMem (x : Nat) : (s.setRet x).suffixMem = s.suffixMem := rfl
@[simp] theorem setRet_host (x : Nat) : (s.setRet x).host = s.host := rfl
@[simp] theorem setRet_rdata (x : Nat) : (s.setRet x).rdata = s.rdata := rfl
@[simp] theorem setRet_ret (x : Nat) : (s.setRet x).ret = x := rfl
@[simp] theorem setRet_diag (x : Nat) : (s.setRet x).diag = s.diag := rfl
@[simp] theorem setRet_free (x : Nat) : (s.setRet x).free = s.free := rfl

@[simp] theorem setDiag_params (x : Diag) : (s.setDiag x).params = s.params := rfl
@[simp] theorem setDiag_regs (x : Diag) : (s.setDiag x).regs = s.regs := rfl
@[simp] theorem setDiag_phase (x : Diag) : (s.setDiag x).phase = s.phase := rfl
@[simp] theorem setDiag_lat (x : Diag) : (s.setDiag x).lat = s.lat := rfl
@[simp] theorem setDiag_dec (x : Diag) : (s.setDiag x).dec = s.dec := rfl
@[simp] theorem setDiag_unp (x : Diag) : (s.setDiag x).unp = s.unp := rfl
@[simp] theorem setDiag_pk (x : Diag) : (s.setDiag x).pk = s.pk := rfl
@[simp] theorem setDiag_enc (x : Diag) : (s.setDiag x).enc = s.enc := rfl
@[simp] theorem setDiag_inp (x : Diag) : (s.setDiag x).inp = s.inp := rfl
@[simp] theorem setDiag_out (x : Diag) : (s.setDiag x).out = s.out := rfl
@[simp] theorem setDiag_pay (x : Diag) : (s.setDiag x).pay = s.pay := rfl
@[simp] theorem setDiag_stk (x : Diag) : (s.setDiag x).stk = s.stk := rfl
@[simp] theorem setDiag_prefixMem (x : Diag) : (s.setDiag x).prefixMem = s.prefixMem := rfl
@[simp] theorem setDiag_suffixMem (x : Diag) : (s.setDiag x).suffixMem = s.suffixMem := rfl
@[simp] theorem setDiag_host (x : Diag) : (s.setDiag x).host = s.host := rfl
@[simp] theorem setDiag_rdata (x : Diag) : (s.setDiag x).rdata = s.rdata := rfl
@[simp] theorem setDiag_ret (x : Diag) : (s.setDiag x).ret = s.ret := rfl
@[simp] theorem setDiag_diag (x : Diag) : (s.setDiag x).diag = x := rfl
@[simp] theorem setDiag_free (x : Diag) : (s.setDiag x).free = s.free := rfl

@[simp] theorem setFree_params (x : Nat) : (s.setFree x).params = s.params := rfl
@[simp] theorem setFree_regs (x : Nat) : (s.setFree x).regs = s.regs := rfl
@[simp] theorem setFree_phase (x : Nat) : (s.setFree x).phase = s.phase := rfl
@[simp] theorem setFree_lat (x : Nat) : (s.setFree x).lat = s.lat := rfl
@[simp] theorem setFree_dec (x : Nat) : (s.setFree x).dec = s.dec := rfl
@[simp] theorem setFree_unp (x : Nat) : (s.setFree x).unp = s.unp := rfl
@[simp] theorem setFree_pk (x : Nat) : (s.setFree x).pk = s.pk := rfl
@[simp] theorem setFree_enc (x : Nat) : (s.setFree x).enc = s.enc := rfl
@[simp] theorem setFree_inp (x : Nat) : (s.setFree x).inp = s.inp := rfl
@[simp] theorem setFree_out (x : Nat) : (s.setFree x).out = s.out := rfl
@[simp] theorem setFree_pay (x : Nat) : (s.setFree x).pay = s.pay := rfl
@[simp] theorem setFree_stk (x : Nat) : (s.setFree x).stk = s.stk := rfl
@[simp] theorem setFree_prefixMem (x : Nat) : (s.setFree x).prefixMem = s.prefixMem := rfl
@[simp] theorem setFree_suffixMem (x : Nat) : (s.setFree x).suffixMem = s.suffixMem := rfl
@[simp] theorem setFree_host (x : Nat) : (s.setFree x).host = s.host := rfl
@[simp] theorem setFree_rdata (x : Nat) : (s.setFree x).rdata = s.rdata := rfl
@[simp] theorem setFree_ret (x : Nat) : (s.setFree x).ret = s.ret := rfl
@[simp] theorem setFree_diag (x : Nat) : (s.setFree x).diag = s.diag := rfl
@[simp] theorem setFree_free (x : Nat) : (s.setFree x).free = x := rfl

end Sys2Proof.Machine.State
end

