-- ==== Sys2Proof/Laws/Operations.lean ====
section
/-! SUPPORT. What each shared operation can do, said once: its frame (the fields it may write), and the cases in
which an operation that can stop answers a next state. -/

namespace Sys2Proof.Machine

variable {s t : State}

/-! ### Sequencing -/

@[simp] theorem andThen_next_eq (f : State → Host.Outcome State Fault Refusal) :
    andThen (.next s) f = f s := rfl

theorem andThen_next {o : Host.Outcome State Fault Refusal} {f : State → Host.Outcome State Fault Refusal}
    (h : andThen o f = .next t) : ∃ u, o = .next u ∧ f u = .next t := by
  cases o with
  | next u => exact ⟨u, rfl, h⟩
  | fault r => simp [andThen] at h
  | refused r => simp [andThen] at h

/-! ### Narrowing to a register's width -/

/-- A value that fits is held as it is. -/
theorem narrow_toNat {w v : Nat} (h : v < 2 ^ w) : (narrow w v).toNat = v := by
  simp [narrow, h, Nat.mod_eq_of_lt h]

/-- The value held is never above the value given. -/
theorem narrow_le (w v : Nat) : (narrow w v).toNat ≤ v := by
  by_cases h : v < 2 ^ w
  · exact (narrow_toNat h).le
  · exact (Nat.le_of_lt (narrow w v).isLt).trans (Nat.le_of_not_lt h)

/-! ### DIAG: the block's records leave every other field alone (R38) -/

@[simp] theorem writeDiag_params (s : State) : (writeDiag s).params = s.params := by
  unfold writeDiag; split <;> rfl

@[simp] theorem writeDiag_regs (s : State) : (writeDiag s).regs = s.regs := by
  unfold writeDiag; split <;> rfl

@[simp] theorem writeDiag_phase (s : State) : (writeDiag s).phase = s.phase := by
  unfold writeDiag; split <;> rfl

@[simp] theorem writeDiag_lat (s : State) : (writeDiag s).lat = s.lat := by
  unfold writeDiag; split <;> rfl

@[simp] theorem writeDiag_dec (s : State) : (writeDiag s).dec = s.dec := by
  unfold writeDiag; split <;> rfl

@[simp] theorem writeDiag_unp (s : State) : (writeDiag s).unp = s.unp := by
  unfold writeDiag; split <;> rfl

@[simp] theorem writeDiag_pk (s : State) : (writeDiag s).pk = s.pk := by
  unfold writeDiag; split <;> rfl

@[simp] theorem writeDiag_enc (s : State) : (writeDiag s).enc = s.enc := by
  unfold writeDiag; split <;> rfl

@[simp] theorem writeDiag_inp (s : State) : (writeDiag s).inp = s.inp := by
  unfold writeDiag; split <;> rfl

@[simp] theorem writeDiag_out (s : State) : (writeDiag s).out = s.out := by
  unfold writeDiag; split <;> rfl

@[simp] theorem writeDiag_pay (s : State) : (writeDiag s).pay = s.pay := by
  unfold writeDiag; split <;> rfl

@[simp] theorem writeDiag_stk (s : State) : (writeDiag s).stk = s.stk := by
  unfold writeDiag; split <;> rfl

@[simp] theorem writeDiag_prefixMem (s : State) : (writeDiag s).prefixMem = s.prefixMem := by
  unfold writeDiag; split <;> rfl

@[simp] theorem writeDiag_suffixMem (s : State) : (writeDiag s).suffixMem = s.suffixMem := by
  unfold writeDiag; split <;> rfl

@[simp] theorem writeDiag_host (s : State) : (writeDiag s).host = s.host := by
  unfold writeDiag; split <;> rfl

@[simp] theorem writeDiag_rdata (s : State) : (writeDiag s).rdata = s.rdata := by
  unfold writeDiag; split <;> rfl

@[simp] theorem writeDiag_ret (s : State) : (writeDiag s).ret = s.ret := by
  unfold writeDiag; split <;> rfl

@[simp] theorem writeDiag_free (s : State) : (writeDiag s).free = s.free := by
  unfold writeDiag; split <;> rfl

theorem writeDiag_frame (s : State) : writeDiag s = { s with diag := (writeDiag s).diag } := by
  unfold writeDiag; split <;> rfl

/-- What the sink has received only grows. -/
theorem writeDiag_records (s : State) : ∃ l, (writeDiag s).diag.records = s.diag.records ++ l := by
  unfold writeDiag; split
  · exact ⟨[], by simp⟩
  · exact ⟨_, rfl⟩

/-! ### ABORT -/

@[simp] theorem abortState_phase (x : Cause) : (abortState x s).phase = .idle := rfl

@[simp] theorem abortState_regs (x : Cause) :
    (abortState x s).regs = { s.regs with status := statusAborted x, outLen := 0, inConsumed := 0 } := rfl

/-- ABORT leaves IN, the open parameters and the host's side alone. -/
theorem abortState_frame (x : Cause) : (abortState x s).inp = s.inp ∧ (abortState x s).params = s.params ∧
    (abortState x s).host = s.host ∧ (abortState x s).rdata = s.rdata ∧ (abortState x s).ret = s.ret :=
  ⟨rfl, rfl, rfl, rfl, rfl⟩

/-- After ABORT every buffer of the block is unspecified. -/
theorem abortState_memories (x : Cause) : (abortState x s).out.cells = [] ∧ (abortState x s).pay.cells = [] ∧
    (abortState x s).stk.cells = [] ∧ (abortState x s).prefixMem.cells = [] ∧
    (abortState x s).suffixMem.cells = [] :=
  ⟨rfl, rfl, rfl, rfl, rfl⟩

/-! ### Packer -/

theorem putByte_frame (b : Byte) (s : State) :
    putByte b s = { s with out := (putByte b s).out, pk := (putByte b s).pk } := rfl

theorem writeBit_frame (bit : Nat) (s : State) :
    writeBit bit s = { s with out := (writeBit bit s).out, pk := (writeBit bit s).pk } := by
  simp only [writeBit]; split <;> rfl

theorem writeBits_frame (code i n : Nat) (s : State) :
    writeBits code i n s = { s with out := (writeBits code i n s).out, pk := (writeBits code i n s).pk } := by
  induction n generalizing i s with
  | zero => rfl
  | succ n ih =>
    rw [writeBits, ih (i + 1) (writeBit (bitAt code i) s), writeBit_frame]

/-- WRITECODE touches OUT and the packer's cursor only. -/
theorem writeCode_frame (code : Code) (width : Nat) (s : State) :
    writeCode code width s = { s with out := (writeCode code width s).out, pk := (writeCode code width s).pk } :=
  writeBits_frame _ _ _ _

/-- EMIT touches OUT and the packer's cursor only. -/
theorem emitCode_frame (c : Code) (s : State) :
    emitCode c s = { s with out := (emitCode c s).out, pk := (emitCode c s).pk } :=
  writeCode_frame _ _ _

theorem flushPartial_frame (s : State) :
    flushPartial s = { s with out := (flushPartial s).out, pk := (flushPartial s).pk } := by
  unfold flushPartial; split <;> rfl

/-- FLUSH touches OUT and the packer's cursor only. -/
theorem flushOut_frame (s : State) :
    flushOut s = { s with out := (flushOut s).out, pk := (flushOut s).pk } := by
  unfold flushOut
  rw [flushPartial_frame]
  rfl

theorem writeLengths_wf (P nb : Nat) {mem : Memory 8} (h : mem.wf) : (writeLengths P nb mem).wf := by
  induction nb with
  | zero => exact h
  | succ nb ih => exact Memory.write_wf ih _ _

theorem putByte_out_wf (b : Byte) (h : s.out.wf) : (putByte b s).out.wf := Memory.write_wf h _ _

theorem writeBit_out_wf (bit : Nat) (h : s.out.wf) : (writeBit bit s).out.wf := by
  simp only [writeBit]; split
  · exact Memory.write_wf h _ _
  · exact h

theorem writeBits_out_wf (code i n : Nat) (h : s.out.wf) : (writeBits code i n s).out.wf := by
  induction n generalizing i s with
  | zero => exact h
  | succ n ih => exact ih (i + 1) (writeBit_out_wf _ h)

theorem writeCode_out_wf (code : Code) (width : Nat) (h : s.out.wf) : (writeCode code width s).out.wf :=
  writeBits_out_wf _ _ _ h

theorem flushOut_out_wf (h : s.out.wf) : (flushOut s).out.wf := by
  unfold flushOut flushPartial
  split
  · exact Memory.write_wf (writeLengths_wf _ _ (putByte_out_wf _ h)) _ _
  · exact Memory.write_wf (writeLengths_wf _ _ h) _ _

/-! ### Unpacker -/

/-- READCODE answers a code exactly when enough bits are left, and moves the cursor only. -/
theorem readCode_some {width : Nat} {c : Code} (h : readCode width s = some (c, t)) :
    s.unp.bitpos.toNat + width ≤ 8 * s.unp.plen.toNat ∧
    c = narrow 12 (sumBits (fun i => payloadBit s.pay (s.unp.bitpos.toNat + i)) width) ∧
    t = { s with unp := { s.unp with bitpos := narrow 35 (s.unp.bitpos.toNat + width) } } := by
  unfold readCode at h
  split at h
  · simp at h
  · simp only [Option.some.injEq, Prod.mk.injEq] at h
    exact ⟨by omega, h.1.symm, h.2.symm⟩

theorem readCode_none {width : Nat} :
    readCode width s = none ↔ 8 * s.unp.plen.toNat < s.unp.bitpos.toNat + width := by
  unfold readCode; split <;> simp_all

/-- DEFRAME's loop touches PAY and the unpacker's cursor only. -/
theorem deframeLoop_frame {n : Nat} (h : deframeLoop n s = .ok t) : t = { s with pay := t.pay, unp := t.unp } := by
  induction n generalizing s with
  | zero => simp [deframeLoop] at h
  | succ n ih =>
    rw [deframeLoop] at h
    split at h
    · rw [ih h]; rfl
    · simp only [Except.ok.injEq] at h; subst h; rfl
    · simp at h
    · simp at h

theorem deframeLoop_pay_wf {n : Nat} (hw : s.pay.wf) (h : deframeLoop n s = .ok t) : t.pay.wf := by
  induction n generalizing s with
  | zero => simp [deframeLoop] at h
  | succ n ih =>
    rw [deframeLoop] at h
    split at h
    · exact ih (s := takeSubblock _ s) (Memory.writeList_wf hw _ _) h
    · simp only [Except.ok.injEq] at h; subst h; exact hw
    · simp at h
    · simp at h

/-- DEFRAME touches PAY and the unpacker's cursor only, and starts the payload bits at 0 (R154). -/
theorem deframe_frame (h : deframe s = .ok t) : t = { s with pay := t.pay, unp := t.unp } ∧ t.unp.bitpos = 0 := by
  unfold deframe at h
  split at h
  next u hu =>
    simp only [Except.ok.injEq] at h
    subst h
    have := deframeLoop_frame hu
    refine ⟨?_, rfl⟩
    rw [this]; rfl
  next => simp at h

/-! ### Decoder -/

/-- RESOLVE touches STK only. -/
theorem resolve_frame {k : Code} {q : Seq} (h : resolve k s = some (q, t)) :
    t = { s with stk := t.stk } ∧ (s.stk.wf → t.stk.wf) := by
  unfold resolve at h
  split at h
  · simp only [Option.some.injEq, Prod.mk.injEq] at h
    obtain ⟨-, rfl⟩ := h
    exact ⟨rfl, fun hw => Memory.writeList_wf hw _ _⟩
  · simp at h

theorem outputSym_frame (s : State) (b : Byte) :
    outputSym s b = { s with out := (outputSym s b).out, dec := { s.dec with ocount := s.dec.ocount + 1 } } := by
  unfold outputSym; split <;> rfl

theorem outputSym_out_wf (b : Byte) (h : s.out.wf) : (outputSym s b).out.wf := by
  unfold outputSym; split
  · exact Memory.write_wf h _ _
  · exact h

/-- OUTPUT touches OUT and OCOUNT only, and counts every symbol (R188). -/
theorem outputSyms_frame (syms : List Byte) (s : State) :
    outputSyms syms s = { s with out := (outputSyms syms s).out,
                                 dec := { s.dec with ocount := s.dec.ocount + syms.length } } := by
  induction syms generalizing s with
  | nil => rfl
  | cons b syms ih =>
    have h : outputSyms (b :: syms) s = outputSyms syms (outputSym s b) := rfl
    rw [h, ih, outputSym_frame]
    simp [Nat.add_assoc, Nat.add_comm 1]

theorem outputSyms_out_wf (syms : List Byte) (h : s.out.wf) : (outputSyms syms s).out.wf := by
  induction syms generalizing s with
  | nil => exact h
  | cons b syms ih => exact ih (s := outputSym s b) (outputSym_out_wf b h)

/-- INSERT touches the decoder's registers and DICT only. -/
theorem insertEntry_frame (c : Code) (s0 : Byte) (s : State) :
    insertEntry c s0 s = { s with dec := (insertEntry c s0 s).dec, prefixMem := (insertEntry c s0 s).prefixMem,
                                  suffixMem := (insertEntry c s0 s).suffixMem } := by
  simp only [insertEntry]; split <;> rfl

theorem insertEntry_wf (c : Code) (s0 : Byte) (hp : s.prefixMem.wf) (hs : s.suffixMem.wf) :
    (insertEntry c s0 s).prefixMem.wf ∧ (insertEntry c s0 s).suffixMem.wf := by
  simp only [insertEntry]; split
  · exact ⟨Memory.write_wf hp _ _, Memory.write_wf hs _ _⟩
  · exact ⟨hp, hs⟩

/-! ### Encoder -/

/-- INSERT_E touches DICT, the sizes, and through the reset CLEAR the packer only. -/
theorem insertE_frame (p : Code) (c : Byte) (s : State) :
    insertE p c s = { s with out := (insertE p c s).out, pk := (insertE p c s).pk, enc := (insertE p c s).enc,
                             prefixMem := (insertE p c s).prefixMem, suffixMem := (insertE p c s).suffixMem } := by
  simp only [insertE]
  split
  · split
    · unfold clearFull resetSizes
      rw [emitCode_frame]; rfl
    · rfl
  · rfl

/-- The lookup answers an entry that stands for CUR followed by `c` (R51). -/
theorem lookup_some {c : Byte} {k : Nat} (h : lookup s c = some k) :
    s.lat.firstFree.toNat ≤ k ∧ k < s.enc.esize.toNat ∧ s.prefixMem.read k = s.enc.cur ∧
      s.suffixMem.read k = c := by
  unfold lookup at h
  have hm := List.mem_of_find?_eq_some h
  have hp := List.find?_some h
  simp only [List.mem_range'_1, Bool.and_eq_true, beq_iff_eq] at hm hp
  exact ⟨hm.1, by omega, hp.1, hp.2⟩

/-- The lookup fails only when there is no such entry. -/
theorem lookup_none {c : Byte} (h : lookup s c = none) (k : Nat) (h1 : s.lat.firstFree.toNat ≤ k)
    (h2 : k < s.enc.esize.toNat) : ¬(s.prefixMem.read k = s.enc.cur ∧ s.suffixMem.read k = c) := by
  unfold lookup at h
  rw [List.find?_eq_none] at h
  have := h k (by rw [List.mem_range'_1]; omega)
  simpa using this

/-! ### Commands -/

/-- Within the capacities (R86): all three bounds hold. -/
theorem overCapacity_false {caps : Params} {N ilen need : Nat} : overCapacity caps N ilen need = false ↔
    N ≤ caps.maxPixels ∧ ilen ≤ caps.inCap ∧ need ≤ caps.outCap := by
  simp [overCapacity]

/-- START answers a next state only when the block is not busy and the four registers are written. -/
theorem start_next {op : Op} (h : start op s = .next t) :
    s.busy = false ∧ regsWritten s.regs = true ∧ t = started op s := by
  unfold start at h
  split at h
  · simp at h
  · split at h
    · simp only [Host.Outcome.next.injEq] at h
      exact ⟨by simp_all, by assumption, h.symm⟩
    · simp at h

/-- A DECODE's CHECK aborts with a parameter error or passes with `N` latched. -/
theorem checkDecode_next (h : checkDecode s = .next t) :
    t = abortState .mcsRange s ∨ t = abortState .dimNonpositive s ∨
    (mcsLegal s.lat.m.toNat = true ∧ dimsBad s.lat = false ∧ beyondCapacity s (pixelCount s.lat) = false ∧
      t = { s with phase := .deframe, lat := { s.lat with n := pixelCount s.lat } }) := by
  unfold checkDecode at h
  repeat' split at h
  all_goals first
    | (simp only [Host.Outcome.next.injEq] at h; subst h; simp_all; done)
    | (simp only [Host.Outcome.next.injEq] at h; subst h
       exact .inr (.inr ⟨by simp_all, by simp_all, by simp_all, rfl⟩))
    | simp at h

/-- An ENCODE's CHECK aborts or passes with `N` latched. -/
theorem checkEncode_next (h : checkEncode s = .next t) :
    (∃ x, t = abortState x s) ∨
    (mcsLegal s.lat.m.toNat = true ∧ dimsBad s.lat = false ∧ s.lat.ilen.toNat = pixelCount s.lat ∧
      beyondCapacity s (framedBound (pixelCount s.lat)) = false ∧ indexBad s = false ∧
      t = { s with phase := .encode, lat := { s.lat with n := pixelCount s.lat } }) := by
  unfold checkEncode at h
  repeat' split at h
  all_goals first
    | (simp only [Host.Outcome.next.injEq] at h; subst h; exact .inl ⟨_, rfl⟩)
    | (simp only [Host.Outcome.next.injEq] at h; subst h
       exact .inr ⟨by simp_all, by simp_all, by simp_all, by simp_all, by simp_all, rfl⟩)
    | simp at h

end Sys2Proof.Machine
end

