-- ==== Sys2Proof/Laws/PerInstr.lean ====
section
/-! SUPPORT. Statements made of every instruction, one lemma per constructor of Instr. -/

namespace Sys2Proof.Laws.Format

/-- The object an instruction encodes to has the format its row of the opcode table gives: a CMD byte (R110), a code
of the reader's width (R100, R102), framing bytes (R108), or none for an internal step. -/
def Statement (i : Instr) : Prop :=
  ∀ x : Ctx, match i with
  | .decode | .encode | .cmdNop _ | .cmdReserved _ =>
    ∃ b, Sys2Proof.encode x i = .cmd b
  | .clear | .endCode | .lit _ | .dict _ | .defer | .badcode _ | .eClearStart
  | .eData _ | .eClearFull | .eEnd =>
    ∃ bits, Sys2Proof.encode x i = .code bits ∧ bits.length = Machine.Wd x.d
  | .subblock _ | .term =>
    ∃ bytes, Sys2Proof.encode x i = .frame bytes ∧ bytes ≠ []
  | .packInit | .putbyte _ | .writecode _ _ | .flush | .deframe | .readcode _ | .decoderInit
  | .insert _ _ | .output _ | .decstep | .resolve _ | .encoderInit | .dataSent | .emit _
  | .matchStart | .encStep | .extend _ | .miss _ | .insertE _ _ | .final | .rowmap _
  | .addr _ | .finishDecode | .finishEncode | .abort _ | .reset =>
    Sys2Proof.encode x i = .internal

theorem code_length (x : Ctx) (c : Nat) :
    ∃ bits, Sys2Proof.encodeCode x c = .code bits ∧ bits.length = Machine.Wd x.d :=
  ⟨_, rfl, by simp [Sys2Proof.codeBits]⟩

theorem decode : Statement (.decode) := fun _ => ⟨_, rfl⟩
theorem encode : Statement (.encode) := fun _ => ⟨_, rfl⟩
theorem cmdNop (low : BitVec 7) : Statement (.cmdNop low) := fun _ => ⟨_, rfl⟩
theorem cmdReserved (low : BitVec 7) : Statement (.cmdReserved low) := fun _ => ⟨_, rfl⟩
theorem clear : Statement (.clear) := fun x => code_length x _
theorem endCode : Statement (.endCode) := fun x => code_length x _
theorem lit (c : Byte) : Statement (.lit c) := fun x => code_length x _
theorem dict (c : Code) : Statement (.dict c) := fun x => code_length x _
theorem defer : Statement (.defer) := fun x => code_length x _
theorem badcode (c : Code) : Statement (.badcode c) := fun x => code_length x _
theorem eClearStart : Statement (.eClearStart) := fun x => code_length x _
theorem eData (c : Code) : Statement (.eData c) := fun x => code_length x _
theorem eClearFull : Statement (.eClearFull) := fun x => code_length x _
theorem eEnd : Statement (.eEnd) := fun x => code_length x _
theorem subblock (payload : List Byte) : Statement (.subblock payload) := fun _ => ⟨_, rfl, by simp⟩
theorem term : Statement (.term) := fun _ => ⟨_, rfl, by simp⟩
theorem packInit : Statement (.packInit) := fun _ => rfl
theorem putbyte (b : Byte) : Statement (.putbyte b) := fun _ => rfl
theorem writecode (code : Code) (width : Nat) : Statement (.writecode code width) := fun _ => rfl
theorem flush : Statement (.flush) := fun _ => rfl
theorem deframe : Statement (.deframe) := fun _ => rfl
theorem readcode (width : Nat) : Statement (.readcode width) := fun _ => rfl
theorem decoderInit : Statement (.decoderInit) := fun _ => rfl
theorem insert (c : Code) (s0 : Byte) : Statement (.insert c s0) := fun _ => rfl
theorem output (syms : List Byte) : Statement (.output syms) := fun _ => rfl
theorem decstep : Statement (.decstep) := fun _ => rfl
theorem resolve (k : Code) : Statement (.resolve k) := fun _ => rfl
theorem encoderInit : Statement (.encoderInit) := fun _ => rfl
theorem dataSent : Statement (.dataSent) := fun _ => rfl
theorem emit (c : Code) : Statement (.emit c) := fun _ => rfl
theorem matchStart : Statement (.matchStart) := fun _ => rfl
theorem encStep : Statement (.encStep) := fun _ => rfl
theorem extend (k : Code) : Statement (.extend k) := fun _ => rfl
theorem miss (c : Byte) : Statement (.miss c) := fun _ => rfl
theorem insertE (p : Code) (c : Byte) : Statement (.insertE p c) := fun _ => rfl
theorem final : Statement (.final) := fun _ => rfl
theorem rowmap (r : Nat) : Statement (.rowmap r) := fun _ => rfl
theorem addr (p : Nat) : Statement (.addr p) := fun _ => rfl
theorem finishDecode : Statement (.finishDecode) := fun _ => rfl
theorem finishEncode : Statement (.finishEncode) := fun _ => rfl
theorem abort (cause : Cause) : Statement (.abort cause) := fun _ => rfl
theorem reset : Statement (.reset) := fun _ => rfl

end Sys2Proof.Laws.Format
end

