-- ==== Sys2Proof/Tests/Slice0.lean ====
section
/-! SUPPORT. Tests: expected values are those of 95_test_vectors.md and the worked examples of the rules (named in
each comment), and witnesses that the hypotheses of the statements can be met together. -/

namespace Sys2Proof.Tests

open Sys2Proof Sys2Proof.Machine

/-! ### Well-formedness: one ill-formed term for each check, which the check refuses -/

theorem test_wf_writecode_narrow : (Instr.writecode 4 2).wf = false := by decide
theorem test_wf_writecode_wide : (Instr.writecode 4 13).wf = false := by decide
theorem test_wf_readcode_narrow : (Instr.readcode 2).wf = false := by decide
theorem test_wf_readcode_wide : (Instr.readcode 13).wf = false := by decide
theorem test_wf_subblock_empty : (Instr.subblock []).wf = false := by decide
theorem test_wf_subblock_long : (Instr.subblock (List.replicate 256 0)).wf = false := by
  simp only [Instr.wf, List.length_replicate]; decide
theorem test_wf_reserved_is_decode : (Instr.cmdReserved 0x01#7).wf = false := by decide
theorem test_wfIn_lit : (Instr.lit 4).wfIn ⟨2, 6, false⟩ = false := by decide
theorem test_wfIn_dict_unassigned : (Instr.dict 7).wfIn ⟨2, 7, true⟩ = false := by decide
theorem test_wfIn_dict_reserved : (Instr.dict 5).wfIn ⟨2, 7, true⟩ = false := by decide
theorem test_wfIn_defer_full : Instr.defer.wfIn ⟨2, 4096, true⟩ = false := by decide
theorem test_wfIn_defer_no_prev : Instr.defer.wfIn ⟨2, 6, false⟩ = false := by decide
theorem test_wfIn_badcode_assigned : (Instr.badcode 6).wfIn ⟨2, 7, true⟩ = false := by decide
theorem test_wfIn_eData_clear : (Instr.eData 4).wfIn ⟨2, 7, true⟩ = false := by decide
theorem test_wfIn_resolve_unassigned : (Instr.resolve 7).wfIn ⟨2, 7, true⟩ = false := by decide
theorem test_ctx_m_range : Ctx.ok ⟨9, 600, false⟩ = false := by decide
theorem test_ctx_d_range : Ctx.ok ⟨2, 5, false⟩ = false := by decide

/-! ### Decoding: words written out from 30_encoding.md -/

theorem test_decode_cmd_decode : decodeTableWord 8 0x81 = some .decode := by decide
theorem test_decode_cmd_encode : decodeTableWord 8 0x82 = some .encode := by decide
theorem test_decode_cmd_nop : decodeTableWord 8 0x01 = some (.cmdNop 0x01#7) := by decide
theorem test_decode_cmd_nop_top : decodeTableWord 8 0x7F = some (.cmdNop 0x7F#7) := by decide
theorem test_decode_cmd_op0 : decodeTableWord 8 0x80 = some (.cmdReserved 0x00#7) := by decide
theorem test_decode_cmd_op3 : decodeTableWord 8 0x83 = some (.cmdReserved 0x03#7) := by decide
theorem test_decode_cmd_bit2 : decodeTableWord 8 0x85 = some (.cmdReserved 0x05#7) := by decide
-- `#4/3`, `#5/4`, `#3/3`, `#6/3`, `#8/4`, `#7/3`, with m = 2 (R113 notation, least significant bit first)
theorem test_decode_clear : decode ⟨2, 6, false⟩ (.code [false, false, true]) = .ok .clear := by decide
theorem test_decode_end_wide : decode ⟨2, 9, true⟩ (.code [true, false, true, false]) = .ok .endCode := by decide
theorem test_decode_lit : decode ⟨2, 6, true⟩ (.code [true, true, false]) = .ok (.lit 3#8) := by decide
theorem test_decode_dict : decode ⟨2, 7, true⟩ (.code [false, true, true]) = .ok (.dict 6#12) := by decide
theorem test_decode_defer : decode ⟨2, 8, true⟩ (.code [false, false, false, true]) = .ok .defer := by decide
theorem test_decode_badcode : decode ⟨2, 6, false⟩ (.code [true, true, true]) = .ok (.badcode 7#12) := by decide
theorem test_decode_no_prev : decode ⟨2, 6, false⟩ (.code [false, true, true]) = .ok (.badcode 6#12) := by decide
theorem test_decode_wrong_width : decode ⟨2, 8, true⟩ (.code [false, true, true]) = .error .wrongWidth := by decide
theorem test_decode_clear_m8 : decode ⟨8, 258, false⟩
    (.code [false, false, false, false, false, false, false, false, true]) = .ok .clear := by decide
theorem test_decode_subblock : decode ⟨2, 6, false⟩ (.frame [0x02#8, 0x84#8, 0x8F#8, 0x00#8]) =
    .ok (.subblock [0x84#8, 0x8F#8]) := by decide
theorem test_decode_term : decode ⟨2, 6, false⟩ (.frame [0x00#8, 0xAA#8]) = .ok .term := by decide
-- 95_test_vectors.md 1.2: `05 84 8F 05` declares 5 bytes where 3 remain
theorem test_decode_overrun : decode ⟨2, 6, false⟩ (.frame [0x05#8, 0x84#8, 0x8F#8, 0x05#8]) = .error .overrun := by
  decide
theorem test_decode_no_terminator : decode ⟨2, 6, false⟩ (.frame []) = .error .noLengthByte := by decide

-- encodings, from the same formats
theorem test_encode_clear_wide : encode ⟨2, 9, true⟩ .clear = .code [false, false, true, false] := by decide
theorem test_encode_reserved : encode ⟨2, 6, false⟩ (.cmdReserved 0x03#7) = .cmd 0x83#8 := by decide
theorem test_encode_subblock : encode ⟨2, 6, false⟩ (.subblock [0x84#8]) = .frame [0x01#8, 0x84#8] := by decide

-- R15's table and R30 D: widths at the thresholds of 3.5 (m = 2)
theorem test_width_table : [6, 7, 8, 15, 16, 255, 256, 2047, 2048, 4095, 4096].map Wd =
    [3, 3, 4, 4, 5, 8, 9, 11, 12, 12, 12] := by decide

/-! ### Small states -/

/-- What a next state holds, by a view of it. -/
def after {α : Type} (o : Host.Outcome State Fault Refusal) (f : State → α) : Option α :=
  match o with
  | .next t => some (f t)
  | _ => none

/-- Parameters latched for m = 2 (R104). -/
def lat2 (op : Op) (width height ilen : Word) : Latched :=
  { op := op, m := 2, clear := 4, endCode := 5, firstFree := 6, intl := false, nr := false
    wid := width, hgt := height, ilen := ilen, n := width.toNat * height.toNat }

/-- A small machine with 100-byte buffers. -/
def small : State := State.resetWith ⟨100, 100, 100⟩ [] 0 ⟨[], 0⟩ 0

/-- The host registers of Program A, written (95_test_vectors.md 8.1). -/
def regsA : HostRegs :=
  { HostRegs.reset with
    cfg := 0x02, cfgWritten := true, width := 10, widthWritten := true
    height := 1, heightWritten := true, inLen := 5, inLenWritten := true }

/-- The same registers while a transaction runs. -/
def busyRegs : HostRegs := { regsA with status := statusRunning }

/-- Program A's IN: `03 84 8F 05 00`. -/
def inA : Memory 8 := ⟨[(0, 0x03), (1, 0x84), (2, 0x8F), (3, 0x05), (4, 0x00)], 0⟩

/-- Program A before its first access to CMD. -/
def idleA : State := { small with regs := regsA, inp := inA }

/-- Program A in a given phase. -/
def runA (p : Phase) : State := { idleA with regs := busyRegs, phase := p, lat := lat2 .decode 10 1 5 }

/-- Program A after `#4/3 #0/3 #6/3`: D = 7, entry 6 = (0, 0), PREV = 6, three indices stored, 9 bits read. -/
def decA : State :=
  { runA .lzwdec with
    dec := ⟨7, .reading, 6, true, 3⟩
    unp := ⟨5, 5, 3, 9⟩
    pay := ⟨[(0, 0x84), (1, 0x8F), (2, 0x05)], 0⟩
    out := ⟨[(0, 0), (1, 0), (2, 0)], 0⟩
    prefixMem := ⟨[(6, 0)], 0⟩
    suffixMem := ⟨[(6, 0)], 0⟩ }

/-- Program B (8.2) in phase ENCODE before step 4 of the trace of 3.3: IPOS = 4, CUR = 6. -/
def encB : State :=
  { small with
    regs := { busyRegs with inLen := 8, width := 4, height := 2 }
    phase := .encode
    lat := lat2 .encode 4 2 8
    enc := ⟨8, 7, 4, 6, false⟩
    pk := ⟨0x04, 3, 1, 0⟩
    inp := ⟨[(0, 0), (1, 1), (2, 0), (3, 1), (4, 0), (5, 1), (6, 0), (7, 1)], 0⟩
    out := ⟨[(1, 0x44)], 0⟩
    prefixMem := ⟨[(6, 0), (7, 1)], 0⟩
    suffixMem := ⟨[(6, 1), (7, 0)], 0⟩ }

/-- An encoder one insertion from the cap. -/
def encFull (nr : Bool) : State :=
  { encB with
    lat := { lat2 .encode 4 2 8 with nr := nr }
    enc := ⟨4095, 4094, 1, 1, false⟩
    pk := ⟨0, 0, 0, 0⟩ }

/-! ### The command interface (95_test_vectors.md section 7) -/

theorem test_start_status : after (exec .decode idleA) (fun t => (t.regs.status, t.phase, t.lat.m, t.lat.wid)) =
    some (0x0001#16, Phase.check, 2#4, 10#32) := by decide
theorem test_start_unwritten : after (exec .decode small) (fun t => t.phase) = none := by decide
theorem test_encode_start_constants : after (exec .encode { idleA with regs := { regsA with cfg := 0x28 } })
    (fun t => (t.lat.clear, t.lat.endCode, t.lat.firstFree, t.lat.nr, t.lat.op)) =
    some (256#9, 257#9, 258#9, true, Op.encode) := by decide
theorem test_start_busy : after (exec .decode (runA .lzwdec)) (fun t => t.phase) = none := by decide
theorem test_nop_busy : after (exec (.cmdNop 1) (runA .lzwdec)) (fun t => t.phase) = some .lzwdec := by decide
theorem test_write_width_busy : after (hostAccess (.writeWidth 3) (runA .lzwdec))
    (fun t => (t.regs.width, t.lat.wid)) = some (3#32, 10#32) := by decide
theorem test_write_cfg_reserved_bits : after (hostAccess (.writeCfg 0xFF) small) (fun t => t.regs.cfg) =
    some 0x3F#8 := by decide
-- R320: a step consumes the host's next access and makes it
theorem test_step_takes_access : after (step { idleA with host := [.writeWidth 3, .readWidth] })
    (fun t => (t.regs.width, t.host)) = some (3#32, [.readWidth]) := by decide
-- R32: CFG[7:6] read 0 before CFG is written too; R56: no host write changes STATUS
theorem six_bits : ∀ v : BitVec 6, v.setWidth 32 &&& 0xFFFFFFC0#32 = 0#32 := by decide
theorem test_read_cfg_unwritten : after (hostAccess .readCfg small) (fun t => t.rdata &&& 0xFFFFFFC0#32) = some 0#32 :=
  congrArg some (six_bits _)
theorem test_write_status : after (hostAccess (.writeStatus 5) (runA .lzwdec)) (fun t => t.regs.status) =
    some 0x0001#16 := by decide
theorem test_first_step_runs : after (step (State.reset.withFetchWord 8 0x81)) (fun t => (t.phase, t.regs.status)) =
    some (Phase.check, 0x0001#16) := by decide

/-! ### Phase CHECK and the ends (3.7, section 4) -/

theorem test_check_passes : after (blockStep (runA .check)) (fun t => (t.phase, t.lat.n)) =
    some (Phase.deframe, 10) := by decide
theorem test_check_mcs_first : after (blockStep { runA .check with lat := { lat2 .decode 0 1 5 with m := 1 } })
    (fun t => t.regs.status) = some 0x010E#16 := by decide
theorem test_check_negative_height : after (blockStep { runA .check with lat := lat2 .decode 3 (-1) 5 })
    (fun t => t.regs.status) = some 0x0816#16 := by decide
theorem test_check_encode_mcs : after (blockStep { runA .check with lat := { lat2 .encode 3 1 3 with m := 9 } })
    (fun t => t.regs.status) = some 0x0916#16 := by decide
theorem test_check_encode_length : after (blockStep { runA .check with lat := lat2 .encode 3 1 2 })
    (fun t => t.regs.status) = some 0x0D1E#16 := by decide
theorem test_check_encode_index : after (blockStep { runA .check with
      lat := lat2 .encode 3 1 3, inp := ⟨[(0, 0), (1, 1), (2, 4)], 0⟩ })
    (fun t => (t.regs.status, t.regs.outLen)) = some (0x0A16#16, 0#32) := by decide
theorem test_check_encode_opens : after (blockStep { runA .check with
      lat := lat2 .encode 4 2 8, inp := encB.inp })
    (fun t => (t.phase, t.pk.acc, t.pk.nacc, t.enc.esize, t.enc.ipos)) =
    some (Phase.encode, 0x04#8, 3#3, 6#13, 1#32) := by decide
theorem test_finish_decode : after (exec .finishDecode { decA with dec := { decA.dec with ocount := 10 } })
    (fun t => (t.regs.status, t.regs.outLen, t.regs.inConsumed, t.phase)) =
    some (0x0002#16, 10#32, 5#32, Phase.idle) := by decide
theorem test_finish_decode_count : after (exec .finishDecode decA) (fun t => t.regs.status) = some 0x0C1E#16 := by
  decide
theorem test_finish_encode : after (exec .finishEncode { encB with pk := ⟨0, 0, 3, 5⟩ })
    (fun t => (t.regs.status, t.regs.outLen, t.regs.inConsumed)) = some (0x0002#16, 5#32, 8#32) := by decide
theorem test_abort : after (exec (.abort .frameOverrun) decA)
    (fun t => (t.regs.status, t.regs.outLen, t.phase, t.out.cells)) = some (0x020E#16, 0#32, Phase.idle, []) := by
  decide
theorem test_reset_busy : after (exec .reset decA) (fun t => (t.regs.status, t.phase, t.regs.cfgWritten)) =
    some (0x0000#16, Phase.idle, false) := by decide

/-! ### Packing layer (section 2) -/

-- 2.1: writeCode(0x7F,7) then writeCode(0xABC,12): here the second, from NACC = 7
theorem test_writecode_spans : after (exec (.writecode 0xABC 12) { small with pk := ⟨0x7F, 7, 0, 0⟩ })
    (fun t => (t.out.cells, t.pk.acc, t.pk.nacc, t.pk.oplen)) =
    some ([(1, 0x7F#8), (2, 0x5E#8)], 0x05#8, 3#3, 2#32) := by decide
theorem test_writecode_drops_high_bits : after (exec (.writecode 0x1F 3) small) (fun t => (t.pk.acc, t.pk.nacc)) =
    some (0x07#8, 3#3) := by decide
-- R142: payload byte 255 goes to OUT[257]
theorem test_putbyte_second_subblock : after (exec (.putbyte 0x84) { small with pk := ⟨0, 0, 255, 0⟩ })
    (fun t => (t.out.cells, t.pk.oplen)) = some ([(257, 0x84#8)], 256#32) := by decide
-- 2.2: `84 8F` with ACC = 05, NACC = 4 flushes to `03 84 8F 05 00`
theorem test_flush : after (exec .flush { small with pk := ⟨0x05, 4, 2, 0⟩, out := ⟨[(1, 0x84), (2, 0x8F)], 0⟩ })
    (fun t => (t.out.cells, t.pk.flen)) =
    some ([(0, 0x03#8), (1, 0x84#8), (2, 0x8F#8), (3, 0x05#8), (4, 0x00#8)], 5#32) := by decide
-- 2.2: P = 256 has FLEN 259, length bytes 0: 255 and 256: 1, terminator 258
theorem test_flush_256 : after (exec .flush { small with pk := ⟨0, 0, 256, 0⟩ }) (fun t => (t.out.cells, t.pk.flen)) =
    some ([(0, 255#8), (256, 1#8), (258, 0#8)], 259#32) := by decide
theorem test_pack_init : after (exec .packInit encB) (fun t => t.pk) = some ⟨0, 0, 0, 0⟩ := by decide
theorem test_deframe : after (exec .deframe (runA .deframe)) (fun t => (t.pay.cells, t.unp)) =
    some ([(0, 0x84#8), (1, 0x8F#8), (2, 0x05#8)], ⟨5, 5, 3, 0⟩) := by decide
-- 2.3: `03 84 8F 05` has no terminator
theorem test_deframe_no_terminator : after (exec .deframe { runA .deframe with lat := lat2 .decode 10 1 4 })
    (fun t => t.regs.status) = some 0x030E#16 := by decide
theorem test_subblock : after (exec (.subblock [0x84, 0x8F]) { small with unp := ⟨2, 0, 1, 0⟩ })
    (fun t => (t.pay.cells, t.unp)) = some ([(1, 0x84#8), (2, 0x8F#8)], ⟨5, 0, 3, 0⟩) := by decide
theorem test_term : after (exec .term { small with unp := ⟨4, 0, 3, 0⟩ }) (fun t => t.unp) = some ⟨5, 5, 3, 0⟩ := by
  decide
-- R156: PAY = `84 8F 05`, BITPOS = 6, readCode(3) returns 6
theorem test_readcode : after (exec (.readcode 3) { decA with unp := ⟨5, 5, 3, 6⟩ })
    (fun t => (t.ret, t.unp.bitpos)) = some (6, 9#35) := by decide
theorem test_readcode_premature : after (exec (.readcode 3) { decA with unp := ⟨5, 5, 3, 22⟩ })
    (fun t => t.regs.status) = some 0x040E#16 := by decide

/-! ### Interlace mapper (5.1, R284) -/

theorem test_pass_table : Config.passes = [(8, 0), (8, 4), (4, 2), (2, 1)] := by decide
theorem test_rowmap_17 : (List.range 17).map (rowmap 17) =
    [0, 8, 16, 4, 12, 2, 6, 10, 14, 1, 3, 5, 7, 9, 11, 13, 15] := by decide
theorem test_rowmap_step : after (exec (.rowmap 3) { small with lat := lat2 .decode 2 9 5 }) (fun t => t.ret) =
    some 2 := by decide
theorem test_addr_interlaced : (List.range 10).map (addrOf { lat2 .decode 2 5 10 with intl := true }) =
    [0, 1, 8, 9, 4, 5, 2, 3, 6, 7] := by decide
-- R33, R283, R284: a height that is not positive has no rows, a width that is not positive gives no address
theorem test_rowmap_negative : rowmap (-2) 0 = Config.rowmapOpen (-2) 0 := by rfl
theorem test_addr_zero_width : addrOf { lat2 .decode 0 5 10 with intl := true } 7 = Config.addrOpen 0 5 7 := by rfl
theorem test_addr_step : after (exec (.addr 2) { small with lat := { lat2 .decode 2 5 10 with intl := true } })
    (fun t => t.ret) = some 8 := by decide

/-! ### Decoder (section 4, 8.1) -/

theorem test_decoder_init : after (exec .decoderInit decA) (fun t => t.dec) = some ⟨6, .init, 6, false, 0⟩ := by decide
theorem test_clear : after (exec .clear decA) (fun t => t.dec) = some ⟨6, .cleared, 6, false, 3⟩ := by decide
theorem test_end : after (exec .endCode decA) (fun t => t.dec.dstate) = some .done := by decide
-- R183: `#4/3 #1/3 #2/3` outputs 1, 2 and inserts entry 6 = (1, 2)
theorem test_lit_inserts : after (exec (.lit 2) { decA with
      dec := ⟨6, .reading, 1, true, 1⟩, prefixMem := ⟨[], 0⟩, suffixMem := ⟨[], 0⟩ })
    (fun t => (t.dec, t.prefixMem.read 6, t.suffixMem.read 6, t.out.read 1)) =
    some (⟨7, .reading, 2, true, 2⟩, 1#12, 2#8, 2#8) := by decide
theorem test_lit_first_of_span : after (exec (.lit 2) { decA with dec := ⟨6, .cleared, 0, false, 1⟩ })
    (fun t => t.dec) = some ⟨6, .reading, 2, true, 2⟩ := by decide
-- R184: entry 6 = (0, 1), code 6 after 1 outputs 0, 1 and inserts 7 = (1, 0)
theorem test_dict : after (exec (.dict 6) { decA with dec := ⟨7, .reading, 1, true, 2⟩, suffixMem := ⟨[(6, 1)], 0⟩ })
    (fun t => (t.dec, t.out.read 2, t.out.read 3, t.prefixMem.read 7, t.suffixMem.read 7)) =
    some (⟨8, .reading, 6, true, 4⟩, 0#8, 1#8, 1#12, 0#8) := by decide
-- 8.1: the code `#7/3` is DEFER, outputs 0 0 0, inserts 7, and is read from payload bits 9 to 11
theorem test_decstep_defer : after (exec .decstep decA)
    (fun t => (t.dec, t.unp.bitpos, t.prefixMem.cells, t.out.cells.length)) =
    some (⟨8, .reading, 7, true, 6⟩, 12#35, [(6, 0#12), (7, 6#12)], 6) := by decide
theorem test_defer : after (exec .defer decA) (fun t => (t.dec.d, t.dec.ocount, t.suffixMem.cells)) =
    some (8#13, 6, [(6, 0#8), (7, 0#8)]) := by decide
theorem test_badcode : after (exec (.badcode 9) decA) (fun t => t.regs.status) = some 0x050E#16 := by decide
theorem test_badcode_no_prev : after (exec (.badcode 7) decA) (fun t => t.regs.status) = some 0x060E#16 := by decide
theorem test_resolve : after (exec (.resolve 6) { decA with suffixMem := ⟨[(6, 3)], 0⟩ }) (fun t => t.stk.cells) =
    some [(0, 3#8), (1, 0#8)] := by decide
-- R188: indices beyond N are counted and not stored
theorem test_output_beyond_n : after (exec (.output [1, 2, 3]) { decA with dec := { decA.dec with ocount := 9 } })
    (fun t => (t.dec.ocount, t.out.read 9, t.out.cells.length)) = some (12, 1#8, 4) := by decide
theorem test_insert_at_cap : after (exec (.insert 9 0) { decA with dec := { decA.dec with d := 4096 } })
    (fun t => (t.dec, t.prefixMem.cells)) = some (⟨4096, .reading, 9, true, 3⟩, [(6, 0#12)]) := by decide

/-! ### Encoder (3.3, R242, R248) -/

theorem test_encoder_init : after (exec .encoderInit encB) (fun t => (t.enc, t.pk.nacc)) =
    some (⟨6, 6, 4, 6, true⟩, 0#3) := by decide
theorem test_eClearStart : after (exec .eClearStart { encB with enc := ⟨6, 6, 0, 0, true⟩, pk := ⟨0, 0, 0, 0⟩ })
    (fun t => (t.pk.acc, t.pk.nacc)) = some (0x04#8, 3#3) := by decide
theorem test_match_start : after (exec .matchStart encB) (fun t => (t.enc.cur, t.enc.ipos)) = some (0#12, 1#32) := by
  decide
theorem test_data_sent : after (exec .dataSent encB) (fun t => t.enc.dsize) = some 8#13 := by decide
theorem test_data_sent_first : after (exec .dataSent { encB with enc := ⟨6, 6, 1, 0, true⟩ })
    (fun t => (t.enc.dsize, t.enc.firstd)) = some (6#13, false) := by decide
theorem test_emit : after (exec (.emit 6) { encB with pk := ⟨0, 0, 0, 0⟩ }) (fun t => (t.pk.acc, t.pk.nacc)) =
    some (0x06#8, 3#3) := by decide
theorem test_eData : after (exec (.eData 6) encB) (fun t => (t.enc.dsize, t.pk.acc, t.pk.nacc)) =
    some (8#13, 0x34#8, 6#3) := by decide
theorem test_eEnd : after (exec .eEnd { encB with enc := ⟨10, 10, 8, 1, false⟩, pk := ⟨0, 0, 0, 0⟩ })
    (fun t => (t.pk.acc, t.pk.nacc)) = some (0x05#8, 4#3) := by decide
-- 3.3 step 4: MISS, code #6/3, insert 8 = (6, 0), DSIZE 8, ESIZE 9, CUR 0
theorem test_encStep_miss : after (exec .encStep encB)
    (fun t => (t.enc, t.prefixMem.read 8, t.suffixMem.read 8, t.pk.nacc)) =
    some (⟨9, 8, 5, 0, false⟩, 6#12, 0#8, 6#3) := by decide
-- 3.3 step 3: EXTEND to 6
theorem test_encStep_extend : after (exec .encStep { encB with enc := ⟨8, 7, 3, 0, false⟩ }) (fun t => (t.enc, t.pk)) =
    some (⟨8, 7, 4, 6, false⟩, ⟨0x04, 3, 1, 0⟩) := by decide
theorem test_extend : after (exec (.extend 6) encB) (fun t => t.enc.cur) = some 6#12 := by decide
theorem test_miss_cur : after (exec (.miss 1) encB) (fun t => (t.enc.cur, t.enc.esize)) = some (1#12, 9#13) := by decide
theorem test_final : after (exec .final encB) (fun t => (t.enc.dsize, t.enc.esize, t.pk.nacc)) =
    some (8#13, 8#13, 6#3) := by decide
-- R242: the insertion that makes ESIZE = 4096 emits CLEAR at 12 bits and resets; R248: not in no-reset mode
theorem test_insertE_reset : after (exec (.insertE 1 0) (encFull false)) (fun t => (t.enc, t.pk.oplen, t.pk.nacc)) =
    some (⟨6, 6, 1, 1, true⟩, 1#32, 4#3) := by decide
theorem test_insertE_no_reset : after (exec (.insertE 1 0) (encFull true)) (fun t => (t.enc, t.pk.nacc)) =
    some (⟨4096, 4094, 1, 1, false⟩, 0#3) := by decide
theorem test_eClearFull : after (exec .eClearFull (encFull false)) (fun t => (t.enc, t.out.read 1, t.pk.acc)) =
    some (⟨6, 6, 1, 1, true⟩, 0x04#8, 0x00#8) := by decide

/-! ### Transaction level (1.1, 3.2) -/

theorem test_tx_decode_short : txDecode small.params (lat2 .decode 3 1 4) [0x02, 0x84, 0x0B, 0x00] = .ok ([0, 0, 0], 4) := by decide
theorem test_tx_encode_short : txEncode small.params (lat2 .encode 3 1 3) [0, 1, 2] = .ok [0x02, 0x44, 0x54, 0x00] := by decide

-- R318, R86: no result where the pseudocode refuses
theorem test_tx_refused : txDecode small.params (lat2 .decode 101 1 4) [0x02, 0x84, 0x0B, 0x00] = .refused ∧
    txEncode small.params (lat2 .encode 32 1 32) (List.replicate 32 0) = .refused := by decide

/-! ### Witnesses: the hypotheses of each statement that has some, met by one state and operands. Where a statement
has clauses, each clause's own hypotheses are met, at a boundary where the clause has one. -/

theorem witness_StepRunsHostCommand :
    ({ idleA with host := [.writeWidth 3] } : State).host = .writeWidth 3 :: [] ∧
    ({ idleA with host := [.writeCmd 0x81, .idle] } : State).host = .writeCmd 0x81 :: [.idle] ∧
    decodeTableWord 8 255 = some (.cmdReserved 0x7F#7) := by decide

theorem witness_ResetFromAnyState : ({ decA with host := [.reset] } : State).host = .reset :: [] := by decide

theorem witness_StepRunsPhaseInstruction :
    (runA .deframe).host = [] ∧ ({ decA with host := [.idle] } : State).host = .idle :: [] ∧
    (writeDiag (runA .deframe)).phase = .deframe ∧ small.phase = .idle ∧ (runA .check).phase = .check ∧ (runA .deframe).phase = .deframe ∧
    (decA.phase = .lzwdec ∧ decA.dec.dstate ≠ .done) ∧
    (encB.phase = .encode ∧ encB.enc.ipos.toNat < encB.lat.n) ∧
    ({ encB with enc := { encB.enc with ipos := 8 } } : State).lat.n ≤ 8 ∧
    (runA .flush).phase = .flush ∧ (runA .finish).lat.op = .decode ∧
    ({ encB with phase := .finish } : State).lat.op = .encode := by decide

theorem witness_CommandEncoding : (idleA.busy = false ∧ regsWritten idleA.regs = true) ∧ (0x7F#8).toNat < 128 ∧ 128 ≤ (0x80#8).toNat ∧ 0x80#8 ≠ 0x81#8 ∧ 0x83#8 ≠ 0x82#8 := by
  decide

theorem witness_WidthIsLeast : min (4095 + 1) 4096 ≤ 2 ^ 12 ∧ 4096 ≤ 4096 ∧ Wd 4095 = 12 ∧ Wd 4096 = 12 := by decide

theorem witness_CommandsThatStartNothing : (runA .check).busy = true ∧ small.busy = false := by decide

theorem witness_DecodeOfEncode : Ctx.ok ⟨2, 4095, true⟩ = true ∧
    ([.decode, .encode, .cmdNop 0x7F, .cmdReserved 0x7F, .clear, .endCode, .lit 3, .dict 4094, .defer] : List Instr).all
      (fun i => i.wf && i.wfIn ⟨2, 4095, true⟩) = true ∧
    ((Instr.badcode 7).wf && (Instr.badcode 7).wfIn ⟨2, 6, false⟩) = true ∧ 7 < 2 ^ Wd 6 ∧
    ((Instr.subblock (List.replicate 255 0)).wf && Instr.term.wf) = true :=
  ⟨by decide, by decide, by decide, by decide,
    by simp only [Instr.wf, List.length_replicate]; decide⟩

theorem witness_EncodeOfDecode : Ctx.ok ⟨8, 258, false⟩ = true ∧
    decode ⟨8, 258, false⟩ (.cmd 0x81) = .ok .decode ∧
    decode ⟨2, 6, false⟩ (.code [false, false, true]) = .ok .clear := by decide

theorem witness_EmittedClassesReadBack : Ctx.ok ⟨2, 4095, true⟩ = true ∧
    (Instr.eData 4095).wfIn ⟨2, 4095, true⟩ = true ∧ (Instr.eData 3).wfIn ⟨2, 4096, true⟩ = true := by decide

theorem witness_CodeClasses : Ctx.ok ⟨2, 6, false⟩ = true ∧ (6#12).toNat < 2 ^ Wd 6 ∧ Ctx.ok ⟨2, 4096, true⟩ = true ∧
    (4095#12).toNat < 2 ^ Wd 4096 := by decide

theorem witness_DecstepRunsDecodedCode : decA.unp.bitpos.toNat + Wd decA.dec.d.toNat ≤ 8 * decA.unp.plen.toNat := by
  decide

theorem witness_StartLatchesParameters : idleA.busy = false ∧ idleA.regs.cfgWritten = true ∧
    idleA.regs.widthWritten = true ∧ idleA.regs.heightWritten = true ∧ idleA.regs.inLenWritten = true ∧
    small.busy = false ∧ small.regs.cfgWritten = false := by decide

theorem witness_StartWhileBusyRefused : (runA .check).busy = true ∧ 128 ≤ (0x80#8).toNat := by decide

theorem witness_CheckOfDecode :
    ((runA .check).phase = .check ∧ (runA .check).lat.op = .decode) ∧
    ¬(2 ≤ ({ lat2 .decode 1 1 1 with m := 9 } : Latched).m.toNat ∧
      ({ lat2 .decode 1 1 1 with m := 9 } : Latched).m.toNat ≤ 8) ∧
    (lat2 .decode 0 1 5).wid.toInt ≤ 0 ∧ 0 < (lat2 .decode 10 1 5).wid.toInt ∧ 0 < (lat2 .decode 10 1 5).hgt.toInt ∧
    (small.params.outCap : Int) < (lat2 .decode 101 1 5).wid.toInt * (lat2 .decode 101 1 5).hgt.toInt ∧
    (lat2 .decode 100 1 100).wid.toInt * (lat2 .decode 100 1 100).hgt.toInt ≤ (small.params.outCap : Int) ∧
    (lat2 .decode 100 1 100).ilen.toNat ≤ small.params.inCap := by decide

theorem witness_CheckOfEncode :
    (({ runA .check with lat := lat2 .encode 4 2 8 } : State).phase = .check) ∧
    (lat2 .encode 3 (-2) 3).hgt.toInt ≤ 0 ∧
    ((lat2 .encode 3 1 2).ilen.toNat : Int) ≠ (lat2 .encode 3 1 2).wid.toInt * (lat2 .encode 3 1 2).hgt.toInt ∧
    ((lat2 .encode 4 2 8).ilen.toNat : Int) = (lat2 .encode 4 2 8).wid.toInt * (lat2 .encode 4 2 8).hgt.toInt ∧
    small.params.outCap < framedBound (lat2 .encode 32 1 32).ilen.toNat ∧
    framedBound (lat2 .encode 4 2 8).ilen.toNat ≤ small.params.outCap ∧
    2 ^ (lat2 .encode 3 1 3).m.toNat ≤ ((⟨[(0, 4)], 0⟩ : Memory 8).read 0).toNat ∧
    (∀ i, i < (lat2 .encode 4 2 8).ilen.toNat → (encB.inp.read i).toNat < 2 ^ (lat2 .encode 4 2 8).m.toNat) := by
  decide

theorem witness_FinishPublishes : (runA .finish).dec.ocount ≠ (runA .finish).lat.n ∧ decA.lat.n < 2 ^ 32 ∧
    ({ decA with dec := { decA.dec with ocount := 10 } } : State).dec.ocount = decA.lat.n := by decide

theorem witness_HostReadsResults : idleA.busy = false ∧ 99 < idleA.params.outCap ∧ idleA.regs.outLen.toNat ≤ 99 ∧
    0 < ({ regsA with outLen := 1 } : HostRegs).outLen.toNat ∧ small.regs.cfgWritten = false ∧
    small.regs.widthWritten = false ∧ small.regs.heightWritten = false ∧ small.regs.inLenWritten = false := by decide

theorem witness_HostBufferDuties : (runA .lzwdec).busy = true ∧ 4 < (runA .lzwdec).lat.ilen.toNat ∧
    (runA .lzwdec).lat.ilen.toNat ≤ 5 ∧ 5 < (runA .lzwdec).params.inCap ∧
    idleA.busy = false ∧ 99 < idleA.params.inCap ∧ idleA.params.inCap ≤ 100 ∧ idleA.params.outCap ≤ 100 := by decide

theorem witness_PutbyteEffect : (small.pk.oplen.toNat) + 1 < 2 ^ 32 := by decide

theorem witness_WritecodeAppendsBits : (Instr.writecode 4095 12).wf = true ∧ accClean encB ∧ packRoom encB 12 := by
  refine ⟨by decide, ?_, ?_⟩ <;> simp only [accClean, packRoom, packedLen] <;> decide

theorem witness_FlushFrames : small.pk.nacc = 0 ∧ 0 < encB.pk.nacc.toNat ∧
    2 = encB.pk.oplen.toNat + (if 0 < encB.pk.nacc.toNat then 1 else 0) ∧
    1 = (2 + 254) / 255 ∧ 2 < 2 ^ 32 ∧ 2 + 1 + 1 < 2 ^ 32 := by decide

theorem witness_FramingWordEffects : (Instr.subblock [0x84]).wf = true ∧ small.unp.plen.toNat + 1 < 2 ^ 32 ∧
    small.unp.fpos.toNat + 1 + 1 < 2 ^ 32 := by decide

theorem witness_DeframeSeparatesPayload :
    txDeframe 6 (inputBytes (runA .deframe)) [] 0 = .ok ([0x84, 0x8F, 0x05], 5) ∧
    txDeframe 5 (inputBytes { runA .deframe with lat := lat2 .decode 10 1 4 }) [] 0 = .error .frameNoTerminator := by
  decide

theorem witness_ReadcodeReadsBits : (Instr.readcode 12).wf = true ∧
    decA.unp.bitpos.toNat + 12 ≤ 8 * decA.unp.plen.toNat ∧
    8 * decA.unp.plen.toNat < ({ decA with unp := ⟨5, 5, 3, 13⟩ } : State).unp.bitpos.toNat + 12 := by decide

theorem witness_RowmapIsPassOrder : ((0 : Nat) : Int) < (runA .lzwdec).lat.hgt.toInt := by decide

theorem decA_placeOk : PlaceOk decA := ⟨by decide, by decide, by decide⟩

/-- decA interlaced, two columns of five rows. -/
def decI : State := { decA with lat := { lat2 .decode 2 5 5 with intl := true } }

theorem witness_AddrIsBijection_interlaced : decI.lat.intl = true ∧ PlaceOk decI ∧ 9 < decI.lat.n ∧
    after (exec (.addr 9) decI) (fun t => t.ret) = some 7 :=
  ⟨by decide, ⟨by decide, by decide, by decide⟩, by decide, by decide⟩

theorem witness_AddrIsBijection : decA.lat.intl = false ∧ PlaceOk decA ∧ 9 < decA.lat.n :=
  ⟨by decide, decA_placeOk, by decide⟩

theorem decA_dict : DictOk decA.lat.m.toNat decA.dec.d.toNat decA.prefixMem decA.suffixMem := by
  refine ⟨by decide, by decide, fun k h1 h2 => ?_⟩
  have h1' : 6 ≤ k := h1
  have h2' : k < 7 := h2
  obtain rfl : k = 6 := by omega
  exact ⟨⟨by decide, by decide, by decide⟩, by decide⟩

theorem decA_ready : DecReady decA :=
  ⟨⟨by decide, by decide, by decide, by decide⟩, decA_dict, fun _ => ⟨by decide, by decide, by decide⟩⟩

theorem witness_ResolveSpellsSequence : DecReady decA ∧
    spellable decA.lat.m.toNat decA.dec.d.toNat (6#12).toNat :=
  ⟨decA_ready, by decide, by decide, by decide⟩

theorem witness_SequencesAreLiteral : DecReady decA ∧ decSpells decA 6 [0, 0] :=
  ⟨decA_ready, Spells.entry (m := 2) (size := 7) 6 [0] (by decide) (by decide)
    (Spells.literal (m := 2) 0 (by decide))⟩

theorem witness_InsertEffect : decA.dec.d.toNat ≤ 4096 ∧
    ({ decA with dec := { decA.dec with d := 4096 } } : State).dec.d.toNat ≤ 4096 := by decide

theorem witness_OutputStoresIndices : PlaceOk decA := decA_placeOk

theorem witness_LitEffect : PlaceOk decA ∧ decA.dec.d.toNat ≤ 4096 := ⟨decA_placeOk, by decide⟩

theorem witness_DictEffect : DecReady decA ∧ PlaceOk decA ∧ 2 ^ decA.lat.m.toNat + 2 ≤ (6#12).toNat ∧
    (6#12).toNat < decA.dec.d.toNat := ⟨decA_ready, decA_placeOk, by decide, by decide⟩

theorem witness_DeferEffect : DecReady decA ∧ PlaceOk decA ∧ decA.dec.d.toNat < 4096 ∧ decA.dec.prevValid = true :=
  ⟨decA_ready, decA_placeOk, by decide, by decide⟩

theorem witness_BadcodeAborts : decA.dec.d.toNat < (8#12).toNat ∧ (7#12).toNat = decA.dec.d.toNat := by decide

theorem decA_run : RunInv decA where
  latched := fun _ => by decide
  checked := fun _ _ => by decide
  capacity := fun _ _ => by decide
  decoding := fun _ => by decide
  encoding := fun h => by revert h; decide

theorem decA_dec : DecInv decA where
  dict := fun _ => decA_dict
  prev := fun _ _ => ⟨by decide, by decide, by decide⟩
  reading := fun _ _ => by decide
  cursor := fun _ => by decide

/-- decA just after a CLEAR: the code `#7/3` is then BADCODE. -/
def decB : State := { decA with dec := ⟨6, .cleared, 1, false, 0⟩ }

theorem decB_dec : DecInv decB where
  dict := fun _ => ⟨by decide, by decide, fun k h1 h2 => by
    have h1' : 6 ≤ k := h1
    have h2' : k < 6 := h2
    omega⟩
  prev := fun _ h => absurd h (by decide)
  reading := fun _ _ => by decide
  cursor := fun _ => by decide

theorem witness_DecstepCompletes : RunInv decA ∧ DecInv decA ∧ decA.phase = .lzwdec ∧
    decA.unp.bitpos.toNat + Wd decA.dec.d.toNat ≤ 8 * decA.unp.plen.toNat ∧
    decode decA.decCtx (.code (payloadBits decA 3)) = .ok .defer ∧
    8 * decA.unp.plen.toNat < ({ decA with unp := ⟨5, 5, 3, 22⟩ } : State).unp.bitpos.toNat + Wd decA.dec.d.toNat :=
  ⟨decA_run, decA_dec, by decide, by decide, by decide, by decide⟩

theorem witness_DecstepCompletes_badcode : RunInv decB ∧ DecInv decB ∧ decB.phase = .lzwdec ∧
    decB.unp.bitpos.toNat + Wd decB.dec.d.toNat ≤ 8 * decB.unp.plen.toNat ∧
    decode decB.decCtx (.code (payloadBits decB (Wd decB.dec.d.toNat))) = .ok (.badcode 7) :=
  ⟨⟨decA_run.latched, decA_run.checked, decA_run.capacity, decA_run.decoding, decA_run.encoding⟩, decB_dec,
    by decide, by decide, by decide⟩

theorem witness_WidthMonotone : RunInv decA ∧ DecInv decA ∧ decA.phase = .lzwdec ∧
    after (exec .decstep decA) (fun t => (t.phase, t.dec.dstate)) = some (.lzwdec, .reading) :=
  ⟨decA_run, decA_dec, by decide, by decide⟩

theorem witness_EncoderRegisterSteps : encB.enc.firstd = false ∧ encB.enc.dsize.toNat < 4096 ∧
    ({ encB with enc := ⟨6, 6, 1, 0, true⟩ } : State).enc.firstd = true := by decide

theorem witness_EmissionsAppendOneCode : accClean encB ∧ packRoom encB 12 := by
  refine ⟨?_, ?_⟩ <;> simp only [accClean, packRoom, packedLen] <;> decide

theorem witness_InsertEEffect : (encFull true).enc.esize.toNat ≤ 4096 ∧ accClean (encFull true) ∧
    packRoom (encFull true) 12 ∧ (encFull true).enc.esize.toNat = 4095 ∧ (encFull true).lat.nr = true ∧
    (encFull false).lat.nr = false ∧ encB.enc.esize.toNat < 4095 ∧
    ({ encB with enc := ⟨4096, 4096, 1, 1, false⟩ } : State).enc.esize.toNat = 4096 := by
  refine ⟨by decide, ?_, ?_, by decide, by decide, by decide, by decide, by decide⟩ <;>
    simp only [accClean, packRoom, packedLen] <;> decide

theorem witness_MissEffect : (1#8).toNat < 2 ^ encB.lat.m.toNat ∧
    after (exec (.miss 1) encB) (fun t => decide (2 ^ encB.lat.m.toNat ≤ t.enc.esize.toNat)) = some true := by decide

theorem witness_EncStepEffect : encB.enc.ipos.toNat < encB.lat.n ∧ encB.lat.n < 2 ^ 32 ∧ encB.enc.esize.toNat ≤ 4096 ∧
    encEntry { encB with enc := ⟨8, 7, 3, 0, false⟩ } 1 6 ∧
    (∀ k, ¬encEntry encB (encB.inp.read encB.enc.ipos.toNat) k) ∧
    encB.lat.n ≤ ({ encB with enc := { encB.enc with ipos := 8 } } : State).enc.ipos.toNat := by
  refine ⟨by decide, by decide, by decide, ⟨by decide, by decide, by decide, by decide⟩, fun k h => ?_, by decide⟩
  have h1 : 6 ≤ k := h.1
  have h2 : k < 8 := h.2.1
  have h3 := h.2.2.1
  obtain rfl | rfl : k = 6 ∨ k = 7 := by omega
  · revert h3; decide
  · revert h3; decide

theorem encB_run : RunInv encB where
  latched := fun _ => by decide
  checked := fun _ _ => by decide
  capacity := fun _ _ => by decide
  decoding := fun h => by revert h; decide
  encoding := fun _ => by decide

theorem encB_enc : EncInv encB where
  dict := fun _ => by
    refine ⟨by decide, by decide, fun k h1 h2 => ?_⟩
    have h1' : 6 ≤ k := h1
    have h2' : k < 8 := h2
    obtain rfl | rfl : k = 6 ∨ k = 7 := by omega
    · exact ⟨⟨by decide, by decide, by decide⟩, by decide⟩
    · exact ⟨⟨by decide, by decide, by decide⟩, by decide⟩
  reset := fun _ _ => by decide
  first := fun _ h => by revert h; decide
  later := fun _ _ => by decide
  started := fun _ _ => by decide
  unique := fun _ j k h1 h2 h3 h4 hp _ => by
    have h1' : 6 ≤ j := h1
    have h2' : j < 8 := h2
    have h3' : 6 ≤ k := h3
    have h4' : k < 8 := h4
    obtain rfl | rfl : j = 6 ∨ j = 7 := by omega
    all_goals obtain rfl | rfl : k = 6 ∨ k = 7 := by omega
    all_goals first | rfl | (revert hp; decide)
  cur := fun _ => ⟨by decide, by decide, by decide⟩
  ipos := fun _ => by decide
  indices := fun _ => by decide
  clean := fun _ => by simp only [accClean]; decide
  bits := fun _ => by simp only [packedLen]; decide
  total := fun h => by revert h; decide

theorem witness_EmittedCodesFit : RunInv encB ∧ EncInv encB ∧ encB.phase = .encode :=
  ⟨encB_run, encB_enc, by decide⟩

theorem encB_host : HostInv encB where
  status := .inr (.inl (by decide))
  busy := by decide
  results := fun _ => by decide
  cfg := by decide
  inp := by decide
  out := by decide
  pay := by decide
  stk := by decide
  pre := by decide
  suf := by decide

theorem encB_out : OutInv encB := by
  intro p hp
  obtain rfl : p = (1, 0x44#8) := by simpa [encB] using hp
  decide

theorem witness_HostInvKept : HostInv encB ∧ after (step encB) (fun t => t.phase) = some .encode :=
  ⟨encB_host, by decide⟩

theorem witness_RunInvKept : RunInv encB ∧ after (step encB) (fun t => t.phase) = some .encode :=
  ⟨encB_run, by decide⟩

theorem witness_DecInvKept : RunInv decA ∧ DecInv decA ∧ after (step decA) (fun t => t.phase) = some .lzwdec :=
  ⟨decA_run, decA_dec, by decide⟩

theorem witness_EncInvKept : HostInv encB ∧ RunInv encB ∧ EncInv encB ∧
    after (step encB) (fun t => t.phase) = some .encode := ⟨encB_host, encB_run, encB_enc, by decide⟩

theorem witness_OutStaysInCapacity : RunInv encB ∧ EncInv encB ∧ OutInv encB ∧
    after (step encB) (fun t => t.phase) = some .encode := ⟨encB_run, encB_enc, encB_out, by decide⟩

theorem witness_DecodeEnds : RunInv decA ∧ DecInv decA ∧ decA.phase = .lzwdec := ⟨decA_run, decA_dec, by decide⟩

theorem witness_EncodeEnds : RunInv encB ∧ EncInv encB ∧ encB.phase = .encode := ⟨encB_run, encB_enc, by decide⟩

theorem checkA_run (op : Op) : RunInv { runA .check with lat := lat2 op 10 1 5 } where
  latched := fun _ => by cases op <;> decide
  checked := fun _ h => absurd rfl h
  capacity := fun _ h => absurd rfl h
  decoding := fun h => by rcases h with h | h <;> cases h
  encoding := fun h => by rcases h with h | h <;> cases h

theorem witness_DecodeRefinesTransaction : RunInv (runA .check) ∧ (runA .check).phase = .check ∧
    (runA .check).lat.op = .decode ∧
    txDecode small.params (lat2 .decode 2 1 3) [0x02, 0x8C, 0x0A, 0x00] = .ok ([1, 2], 4) ∧
    txDecode small.params (lat2 .decode 2 1 3) [0x05, 0x84] = .err .frameOverrun ∧
    txDecode small.params (lat2 .decode 101 1 3) [0x00] = .refused :=
  ⟨checkA_run .decode, by decide, by decide, by decide, by decide, by decide⟩

theorem witness_EncodeRefinesTransaction : RunInv { runA .check with lat := lat2 .encode 10 1 5 } ∧
    txEncode small.params (lat2 .encode 1 1 1) [3] = .ok [0x02, 0x5C, 0x01, 0x00] ∧
    txEncode small.params (lat2 .encode 1 1 1) [4] = .err .indexRange ∧
    txEncode ⟨100, 100, 7⟩ (lat2 .encode 1 1 1) [3] = .refused :=
  ⟨checkA_run .encode, by decide, by decide, by decide⟩

theorem witness_EncodeDecodeRoundTrip :
    txEncode small.params (lat2 .encode 2 1 2) [1, 1] = .ok [0x02, 0x4C, 0x0A, 0x00] ∧
    overCapacity ⟨2, 4, 2⟩ 2 4 2 = false ∧ overCapacity ⟨2, 3, 2⟩ 2 4 2 = true := by decide

/-- A state whose next step writes to the sink, one whose next step faults, one whose next step is refused. -/
theorem witness_DiagChangesNothing : after (step decA) (fun t => (t.phase, t.diag.turn)) = some (.lzwdec, 1) ∧
    step { idleA with host := [.readOut 100] } = .fault .noSuchOutAddress ∧
    step { idleA with host := [.readCmd] } = .refused .readOfCmd :=
  ⟨by decide, rfl, rfl⟩

end Sys2Proof.Tests
end

namespace Sys2Proof.Machine

/-! The code width `Wd` (R15): the search `leastWidth` is characterised by the bounds `v` on its answer, once, and every
part of R15 is read off that equivalence. -/

/-- When the search has increments enough to succeed, its answer is at most `v` exactly when `v` is a width it accepts. -/
theorem leastWidth_le_iff {n w t v : Nat} (enough : t ≤ 2 ^ (w + n)) :
    leastWidth n w t ≤ v ↔ w ≤ v ∧ t ≤ 2 ^ v := by
  have accepts_above {u : Nat} (hu : t ≤ 2 ^ u) : u ≤ v → t ≤ 2 ^ v := fun huv =>
    hu.trans (Nat.pow_le_pow_right Nat.two_pos huv)
  induction n generalizing w with
  | zero => exact (and_iff_left_of_imp (accepts_above enough)).symm
  | succ n ih =>
    rw [leastWidth]
    split
    case isTrue found => exact (and_iff_left_of_imp (accepts_above found)).symm
    case isFalse tooNarrow =>
      have enough' : t ≤ 2 ^ (w + 1 + n) := by rwa [Nat.add_right_comm]
      refine (ih enough').trans (and_congr_left fun hv => ⟨Nat.le_of_succ_le, fun hwv => hwv.lt_of_ne ?_⟩)
      rintro rfl
      exact tooNarrow hv

/-- R15: the widths from `Wd(D)` up are exactly those that spell `min(D + 1, 4096)` codes. -/
theorem Wd_le_iff {D w : Nat} : Wd D ≤ w ↔ min (D + 1) 4096 ≤ 2 ^ w :=
  (leastWidth_le_iff (min_le_right (D + 1) (2 ^ 12))).trans (and_iff_right w.zero_le)

/-- R15: `Wd(D)` is itself such a width. -/
theorem min_le_two_pow_Wd (D : Nat) : min (D + 1) 4096 ≤ 2 ^ Wd D :=
  Wd_le_iff.mp le_rfl

theorem Wd_le_twelve (D : Nat) : Wd D ≤ 12 :=
  Wd_le_iff.mpr (min_le_right (D + 1) (2 ^ 12))

/-- R15: the closed form, with `Nat.size` for the bit length; the cap makes it hold past 4096 too. Both sides have the
same upper bounds. -/
theorem Wd_eq_min_size (D : Nat) : Wd D = min 12 (Nat.size D) := by
  refine eq_of_forall_ge_iff fun w => ?_
  calc Wd D ≤ w
      ↔ D < 2 ^ w ∨ 2 ^ 12 ≤ 2 ^ w := Wd_le_iff.trans min_le_iff
    _ ↔ Nat.size D ≤ w ∨ 12 ≤ w := or_congr Nat.size_le.symm (Nat.pow_le_pow_iff_right Nat.one_lt_two)
    _ ↔ min 12 (Nat.size D) ≤ w := or_comm.trans min_le_iff.symm

/-- Settles O12: every part of R15 is read off the upper bounds of `Wd(D)`. -/
theorem widthIsLeast : Obligations.WidthIsLeast := fun D =>
  ⟨min_le_two_pow_Wd D, fun _ => Wd_le_iff.mpr, Wd_le_twelve D, fun _ => Wd_eq_min_size D⟩

end Sys2Proof.Machine

/-! The code map of R105: one condition per class, and a code is in a class exactly when it meets that class's
condition. -/

namespace Sys2Proof

variable {x : Ctx} {c : Code}

/-- The contexts a code is read in hold at most 256 literals and at least `FIRST_FREE` entries. -/
theorem Ctx.bounds_of_ok (hx : x.ok = true) : 2 ^ x.m ≤ 256 ∧ 2 ^ x.m + 2 ≤ x.d := by
  obtain ⟨-, hm, hd, -⟩ := of_decide_eq_true hx
  exact ⟨Nat.pow_le_pow_right Nat.two_pos hm, hd⟩

/-- The condition column of R105's table. An operand of a class is the value of the code. -/
def CodeClass.Condition (x : Ctx) (c : Code) : CodeClass → Prop
  | .clear => c.toNat = 2 ^ x.m
  | .endCode => c.toNat = 2 ^ x.m + 1
  | .lit b => c.toNat < 2 ^ x.m ∧ b.toNat = c.toNat
  | .dict k => k = c ∧ 2 ^ x.m + 2 ≤ c.toNat ∧ c.toNat < x.d
  | .defer => c.toNat = x.d ∧ x.d < 4096 ∧ x.prevValid = true
  | .badcode k => k = c ∧ ((c.toNat = x.d ∧ x.prevValid = false) ∨ x.d < c.toNat)

/-- A literal's value fits the byte that LIT carries. -/
theorem setWidth_toNat_of_literal (hx : x.ok = true) (hc : c.toNat < 2 ^ x.m) : (c.setWidth 8).toNat = c.toNat :=
  Nat.mod_eq_of_lt (hc.trans_le (Ctx.bounds_of_ok hx).1)

/-- R105: a code meets the condition of its class. -/
theorem classify_condition (hx : x.ok = true) : (classify x c).Condition x c := by
  have fits := c.isLt
  unfold classify
  split_ifs with isClear isEnd isLit isDict isDefer
  · exact isClear
  · exact isEnd
  · exact ⟨isLit, setWidth_toNat_of_literal hx isLit⟩
  · exact ⟨rfl, by omega, isDict⟩
  · exact isDefer
  · refine ⟨rfl, (Nat.le_of_not_lt isDict).eq_or_lt.imp_left fun atEnd => ⟨atEnd.symm, ?_⟩⟩
    exact Bool.eq_false_iff.mpr fun hP => isDefer ⟨atEnd.symm, atEnd ▸ fits, hP⟩

/-- R105: no code meets the condition of another class. -/
theorem classify_eq_of_condition (hx : x.ok = true) {k : CodeClass} (h : k.Condition x c) : classify x c = k := by
  obtain ⟨-, hd⟩ := Ctx.bounds_of_ok hx
  cases k with
  | clear => exact if_pos h
  | endCode =>
    have isEnd : c.toNat = 2 ^ x.m + 1 := h
    rw [classify, if_neg (by omega), if_pos isEnd]
  | lit b =>
    obtain ⟨isLit, hb⟩ := h
    have same : c.setWidth 8 = b := BitVec.eq_of_toNat_eq ((setWidth_toNat_of_literal hx isLit).trans hb.symm)
    rw [classify, if_neg (by omega), if_neg (by omega), if_pos isLit, same]
  | dict k =>
    obtain ⟨rfl, hfirst, isDict⟩ := h
    rw [classify, if_neg (by omega), if_neg (by omega), if_neg (by omega), if_pos isDict]
  | defer =>
    obtain ⟨atEnd, notFull, hP⟩ := h
    rw [classify, if_neg (by omega), if_neg (by omega), if_neg (by omega), if_neg (by omega),
      if_pos ⟨atEnd, notFull, hP⟩]
  | badcode k =>
    obtain ⟨rfl, hbad⟩ := h
    have notDefer : ¬(k.toNat = x.d ∧ x.d < Config.dictCap ∧ x.prevValid = true) := by
      rintro ⟨atEnd, -, hP⟩
      obtain ⟨-, noP⟩ | above := hbad
      · exact absurd hP (Bool.eq_false_iff.mp noP)
      · exact above.ne' atEnd
    rw [classify, if_neg (by omega), if_neg (by omega), if_neg (by omega), if_neg (by omega), if_neg notDefer]

/-- R105: each code is in exactly one class, the one whose condition it meets. -/
theorem classify_eq_iff (hx : x.ok = true) {k : CodeClass} : classify x c = k ↔ k.Condition x c :=
  ⟨fun h => h ▸ classify_condition hx, classify_eq_of_condition hx⟩

/-- R105: the literals are the codes below `2^m`, each carried with its value. -/
theorem classify_lit_iff (hx : x.ok = true) :
    (∃ b : Byte, classify x c = .lit b ∧ b.toNat = c.toNat) ↔ c.toNat < 2 ^ x.m := by
  simp only [classify_eq_iff hx]
  constructor
  · rintro ⟨_, ⟨isLit, -⟩, -⟩
    exact isLit
  · intro isLit
    have value := setWidth_toNat_of_literal hx isLit
    exact ⟨_, ⟨isLit, value⟩, value⟩

/-- R105: a full dictionary leaves no 12-bit code for DEFER or BADCODE. -/
theorem classify_of_full (hx : x.ok = true) (full : x.d = 4096) :
    classify x c ≠ .defer ∧ classify x c ≠ .badcode c := by
  have below : c.toNat < x.d := full ▸ c.isLt
  simp only [ne_eq, classify_eq_iff hx]
  constructor
  · rintro ⟨atEnd, -, -⟩
    exact below.ne atEnd
  · rintro ⟨-, ⟨atEnd, -⟩ | above⟩
    · exact below.ne atEnd
    · exact below.asymm above

/-- Settles O11: every clause is `classify_eq_iff` at one class. -/
theorem codeClasses : Obligations.CodeClasses := fun _ _ hx _ =>
  ⟨classify_eq_iff hx, classify_eq_iff hx, classify_lit_iff hx, (classify_eq_iff hx).trans (and_iff_right rfl),
    classify_eq_iff hx, (classify_eq_iff hx).trans (and_iff_right rfl), classify_of_full hx⟩

end Sys2Proof

/-! The command map of R110: what each CMD byte decodes to, and what the four commands do. -/

namespace Sys2Proof

variable {v : Byte}

/-- R110: START is bit 7 of CMD. -/
theorem startBit_clear_iff : v.getLsbD 7 = false ↔ v.toNat < 128 := by
  rw [← BitVec.msb_eq_getLsbD_last v, BitVec.msb_eq_false_iff_two_mul_lt]
  omega

theorem decodeCmd_of_startBit_clear (h : v.toNat < 128) : decodeCmd v = .cmdNop (v.extractLsb' 0 7) :=
  if_pos (startBit_clear_iff.mpr h)

theorem decodeCmd_of_reserved (hstart : 128 ≤ v.toNat) (hdec : v ≠ 0x81#8) (henc : v ≠ 0x82#8) :
    decodeCmd v = .cmdReserved (v.extractLsb' 0 7) := by
  rw [decodeCmd, if_neg (startBit_clear_iff.not.mpr hstart.not_gt), if_neg hdec, if_neg henc]

end Sys2Proof

namespace Sys2Proof.Machine

variable {s : State}

/-- R300: an idle block with its registers written accepts START. -/
theorem start_of_ready (op : Op) (idle : s.busy = false) (written : regsWritten s.regs = true) :
    start op s = .next (started op s) := by
  simp [start, idle, written]

@[simp] theorem started_busy (op : Op) (s : State) : (started op s).busy = true :=
  show statusBusy statusRunning = true by decide

@[simp] theorem started_phase (op : Op) (s : State) : (started op s).phase = .check := rfl

theorem exec_cmdNop (low : BitVec 7) (s : State) : exec (.cmdNop low) s = .next s := rfl

/-- R300 and R301: CMD_RESERVED is refused in every state, and BUSY only decides the name. -/
theorem exec_cmdReserved (low : BitVec 7) (s : State) :
    exec (.cmdReserved low) s = .refused (if s.busy then .startWhileBusy else .reservedCommand) :=
  (apply_ite Host.Outcome.refused _ _ _).symm

/-- R110: both command values that start a transaction run START with their operation. -/
theorem exec_decodeCmd_start {v : Byte} (h : v = 0x81#8 ∨ v = 0x82#8) :
    ∃ op, ∀ s, exec (decodeCmd v) s = start op s := by
  obtain rfl | rfl := h
  · exact ⟨.decode, fun _ => rfl⟩
  · exact ⟨.encode, fun _ => rfl⟩

/-- Settles O6: the two start values, a clear START bit, and the reserved rest. -/
theorem commandEncoding : Obligations.CommandEncoding := by
  refine fun v s => ⟨?dec, ?enc, ?starts, ?noop, ?reserved⟩
  case dec => rintro rfl; rfl
  case enc => rintro rfl; rfl
  case starts =>
    intro hv idle written
    obtain ⟨op, runs⟩ := exec_decodeCmd_start hv
    exact ⟨started op s, (runs s).trans (start_of_ready op idle written), started_busy op s, started_phase op s⟩
  case noop =>
    intro hclear
    rw [decodeCmd_of_startBit_clear hclear, exec_cmdNop]
  case reserved =>
    intro hstart hdec henc
    rw [decodeCmd_of_reserved hstart hdec henc, exec_cmdReserved]
    exact ⟨_, rfl⟩

end Sys2Proof.Machine

/-! A bit put on top of a clean value (R101, R146): so the packer's ACC grows, and so does the code READCODE sums up. -/

namespace Sys2Proof.Machine

variable {v n : Nat}

theorem bitAt_eq_toNat_testBit (v i : Nat) : bitAt v i = (v.testBit i).toNat :=
  (Nat.toNat_testBit v i).symm

theorem add_topBit_lt (clean : v < 2 ^ n) (b : Bool) : v + b.toNat * 2 ^ n < 2 ^ (n + 1) := by
  have top : b.toNat * 2 ^ n ≤ 1 * 2 ^ n := Nat.mul_le_mul_right _ b.toNat_le
  omega

theorem testBit_add_topBit (clean : v < 2 ^ n) (b : Bool) (j : Nat) :
    (v + b.toNat * 2 ^ n).testBit j = if j < n then v.testBit j else b.toNat.testBit (j - n) := by
  rw [Nat.add_comm, Nat.mul_comm, Nat.testBit_two_pow_mul_add _ clean]

theorem testBit_add_topBit_below (clean : v < 2 ^ n) (b : Bool) {j : Nat} (below : j < n) :
    (v + b.toNat * 2 ^ n).testBit j = v.testBit j := by
  rw [testBit_add_topBit clean, if_pos below]

theorem testBit_add_topBit_top (clean : v < 2 ^ n) (b : Bool) : (v + b.toNat * 2 ^ n).testBit n = b := by
  rw [testBit_add_topBit clean, if_neg n.lt_irrefl, Nat.sub_self, Nat.testBit_bool_toNat]
  rfl

/-- R101: a sum of `w` bits fits `w` bits. -/
theorem sumBits_lt (bit : Nat → Bool) (w : Nat) : sumBits (fun i => (bit i).toNat) w < 2 ^ w := by
  induction w with
  | zero => exact Nat.one_pos
  | succ w ih => exact add_topBit_lt ih (bit w)

/-- R101: and its bits are the bits summed. -/
theorem testBit_sumBits (bit : Nat → Bool) {w i : Nat} (h : i < w) :
    (sumBits (fun i => (bit i).toNat) w).testBit i = bit i := by
  induction w with
  | zero => exact absurd h i.not_lt_zero
  | succ w ih =>
    have clean := sumBits_lt bit w
    obtain below | rfl := Nat.lt_succ_iff_lt_or_eq.mp h
    · exact (testBit_add_topBit_below clean (bit w) below).trans (ih below)
    · exact testBit_add_topBit_top clean (bit i)

end Sys2Proof.Machine

/-! The unpacker: what READCODE returns (R156), and when it raises (R157). -/

namespace Sys2Proof.Machine

variable {s : State} {width : Nat}

theorem payloadBit_eq_toNat_getLsbD (pay : Memory 8) :
    payloadBit pay = fun b => ((pay.read (b / 8)).getLsbD (b % 8)).toNat := by
  funext b
  rw [payloadBit, bitAt_eq_toNat_testBit, BitVec.testBit_toNat]

/-- The code spelled by the next `width` payload bits (R101). -/
def nextCode (width : Nat) (s : State) : Nat :=
  sumBits (fun i => payloadBit s.pay (s.unp.bitpos.toNat + i)) width

theorem nextCode_lt (width : Nat) (s : State) : nextCode width s < 2 ^ width := by
  rw [nextCode, payloadBit_eq_toNat_getLsbD]
  exact sumBits_lt _ _

theorem testBit_nextCode (s : State) {i : Nat} (h : i < width) : (nextCode width s).testBit i =
    (s.pay.read ((s.unp.bitpos.toNat + i) / 8)).getLsbD ((s.unp.bitpos.toNat + i) % 8) := by
  rw [nextCode, payloadBit_eq_toNat_getLsbD]
  exact testBit_sumBits (fun i => (s.pay.read ((s.unp.bitpos.toNat + i) / 8)).getLsbD _) h

theorem exec_readcode_of_enough (enough : s.unp.bitpos.toNat + width ≤ 8 * s.unp.plen.toNat) :
    exec (.readcode width) s = .next ((s.setUnp { s.unp with
      bitpos := narrow 35 (s.unp.bitpos.toNat + width) }).setRet (narrow 12 (nextCode width s)).toNat) := by
  have reads : readCode width s = some (_, _) := if_neg enough.not_gt
  show execReadcode width s = _
  rw [execReadcode, reads]
  rfl

theorem exec_readcode_of_short (short : 8 * s.unp.plen.toNat < s.unp.bitpos.toNat + width) :
    exec (.readcode width) s = exec (.abort .prematureEnd) s := by
  show execReadcode width s = _
  rw [execReadcode, readCode_none.mpr short]
  rfl

/-- Settles O30: a code of at most 12 bits and the moved cursor both fit their registers, so the bits read are kept. -/
theorem readcodeReadsBits : Obligations.ReadcodeReadsBits := by
  refine fun width s hwf => ⟨fun enough => ?_, exec_readcode_of_short⟩
  obtain ⟨-, hwidth⟩ := of_decide_eq_true hwf
  have codeFits : nextCode width s < 2 ^ 12 :=
    (nextCode_lt width s).trans_le (Nat.pow_le_pow_right Nat.two_pos hwidth)
  have cursorFits : s.unp.bitpos.toNat + width < 2 ^ 35 := by
    have := s.unp.plen.isLt
    omega
  have ret : (narrow 12 (nextCode width s)).toNat = nextCode width s := narrow_toNat codeFits
  refine ⟨_, exec_readcode_of_enough enough, ?_, fun i hi => ?_, narrow_toNat cursorFits, rfl⟩
  · exact ret.trans_lt (nextCode_lt width s)
  · exact (congrArg (Nat.testBit · i) ret).trans (testBit_nextCode s hi)

end Sys2Proof.Machine

/-! The packer: where payload bytes go (R142), the bits WRITECODE appends (R146), and the frame FLUSH closes (R147). -/

namespace Sys2Proof.Machine

variable {s t u : State}

/-! ### Placement -/

theorem payloadAddr_eq (i : Nat) : payloadAddr i = i + i / 255 + 1 := rfl

theorem payloadAddr_inj {i j : Nat} : payloadAddr i = payloadAddr j ↔ i = j := by
  rw [payloadAddr_eq, payloadAddr_eq]
  omega

/-- R142: no payload byte goes where a length byte does. -/
theorem payloadAddr_ne_lengthAddr (i k : Nat) : payloadAddr i ≠ 256 * k := by
  rw [payloadAddr_eq]
  omega

@[simp] theorem putByte_out (b : Byte) (s : State) :
    (putByte b s).out = s.out.write (payloadAddr s.pk.oplen.toNat) b := rfl

/-- Settles O25: PUTBYTE is one write at `payloadAddr` and one count. -/
theorem putbyteEffect : Obligations.PutbyteEffect := fun b s =>
  ⟨putByte b s, rfl, s.out.read_write_same _ b, fun _ ha => s.out.read_write_other ha b, narrow_toNat, rfl⟩

/-! ### One bit (R146) -/

/-- What ACC holds once a bit is put on top of its NACC bits. -/
def accWith (bit : Bool) (s : State) : Nat := s.pk.acc.toNat + bit.toNat * 2 ^ s.pk.nacc.toNat

theorem nacc_le_seven (s : State) : s.pk.nacc.toNat ≤ 7 := Nat.le_of_lt_succ s.pk.nacc.isLt

theorem accWith_fits (clean : accClean s) (bit : Bool) : accWith bit s < 2 ^ 8 :=
  (add_topBit_lt clean bit).trans_le (Nat.pow_le_pow_right Nat.two_pos (Nat.succ_le_succ (nacc_le_seven s)))

/-- While ACC is not full, a bit goes into ACC. -/
theorem writeBit_of_notFull (bit : Bool) (notFull : s.pk.nacc.toNat ≠ 7) : writeBit bit.toNat s =
    s.setPk { s.pk with acc := narrow 8 (accWith bit s), nacc := s.pk.nacc + 1 } := by
  rw [writeBit, if_neg (by omega), accWith]

/-- The bit that fills ACC completes a payload byte. -/
theorem writeBit_of_full (bit : Bool) (full : s.pk.nacc.toNat = 7) : writeBit bit.toNat s =
    (putByte (narrow 8 (accWith bit s)) s).setPk
      { s.pk with acc := 0, nacc := 0, oplen := narrow 32 (s.pk.oplen.toNat + 1) } := by
  rw [writeBit, if_pos (by omega)]
  rfl

theorem nacc_succ_toNat (notFull : s.pk.nacc.toNat ≠ 7) : (s.pk.nacc + 1).toNat = s.pk.nacc.toNat + 1 := by
  have := nacc_le_seven s
  exact BitVec.toNat_add_of_lt (Nat.succ_lt_succ (by omega))

theorem accClean_writeBit (clean : accClean s) (bit : Bool) : accClean (writeBit bit.toNat s) := by
  by_cases full : s.pk.nacc.toNat = 7
  · rw [writeBit_of_full _ full]
    exact Nat.one_pos
  · rw [writeBit_of_notFull _ full]
    show (narrow 8 (accWith bit s)).toNat < 2 ^ (s.pk.nacc + 1).toNat
    rw [narrow_toNat (accWith_fits clean bit), nacc_succ_toNat full]
    exact add_topBit_lt clean bit

theorem packedLen_div (s : State) : packedLen s / 8 = s.pk.oplen.toNat := by
  have := nacc_le_seven s
  rw [packedLen]
  omega

theorem packedLen_mod (s : State) : packedLen s % 8 = s.pk.nacc.toNat := by
  have := nacc_le_seven s
  rw [packedLen]
  omega

/-- A byte that fills ACC is counted in OPLEN where there is room to count its last bit. -/
theorem oplen_succ_of_full (full : s.pk.nacc.toNat = 7) (room : packRoom s 1) :
    (narrow 32 (s.pk.oplen.toNat + 1)).toNat = s.pk.oplen.toNat + 1 := by
  refine narrow_toNat ?_
  rw [packRoom, packedLen] at room
  omega

theorem packedLen_writeBit (bit : Bool) (room : packRoom s 1) :
    packedLen (writeBit bit.toNat s) = packedLen s + 1 := by
  by_cases full : s.pk.nacc.toNat = 7
  · rw [writeBit_of_full _ full]
    show 8 * (narrow 32 (s.pk.oplen.toNat + 1)).toNat + 0 = 8 * s.pk.oplen.toNat + s.pk.nacc.toNat + 1
    rw [oplen_succ_of_full full room, full, Nat.mul_succ]
  · rw [writeBit_of_notFull _ full]
    exact congrArg (8 * s.pk.oplen.toNat + ·) (nacc_succ_toNat full)

/-- Up to the bit just written, the stream is the complete bytes of before and then ACC with the bit on top, whether or
not that filled it. -/
theorem packedBit_writeBit (clean : accClean s) (bit : Bool) (room : packRoom s 1) {j : Nat} (h : j ≤ packedLen s) :
    packedBit (writeBit bit.toNat s) j =
      if j / 8 < s.pk.oplen.toNat then (s.out.read (payloadAddr (j / 8))).getLsbD (j % 8)
      else (accWith bit s).testBit (j % 8) := by
  have acc : (narrow 8 (accWith bit s)).getLsbD (j % 8) = (accWith bit s).testBit (j % 8) := by
    rw [← BitVec.testBit_toNat, narrow_toNat (accWith_fits clean bit)]
  by_cases full : s.pk.nacc.toNat = 7
  · have counted : j / 8 < s.pk.oplen.toNat + 1 := by
      rw [packedLen] at h
      omega
    rw [writeBit_of_full _ full, packedBit, State.setPk_pk, oplen_succ_of_full full room, if_pos counted,
      State.setPk_out, putByte_out, Memory.read_write]
    split_ifs with atEnd complete
    · exact absurd (payloadAddr_inj.mp atEnd) complete.ne
    · exact acc
    · rfl
    · exact absurd (payloadAddr_inj.not.mp atEnd) (by omega)
  · rw [writeBit_of_notFull _ full, ← acc]
    rfl

/-- R146: one turn of WRITECODE's loop appends bit `i` of the code. -/
theorem appends_writeBit (clean : accClean s) (room : packRoom s 1) (c i : Nat) :
    Appends s (writeBit (bitAt c i) s) (c >>> i) 1 := by
  rw [bitAt_eq_toNat_testBit]
  refine ⟨packedLen_writeBit _ room, accClean_writeBit clean _, fun j hj => ?kept, fun k hk => ?added,
    fun a ha => ?elsewhere, ?flen⟩
  case kept =>
    rw [packedBit_writeBit clean _ room hj.le, packedBit]
    by_cases complete : j / 8 < s.pk.oplen.toNat
    · rw [if_pos complete, if_pos complete]
    · have below : j % 8 < s.pk.nacc.toNat := by
        rw [packedLen] at hj
        omega
      rw [if_neg complete, if_neg complete, accWith, testBit_add_topBit_below clean _ below, BitVec.testBit_toNat]
  case added =>
    obtain rfl : k = 0 := Nat.lt_one_iff.mp hk
    rw [Nat.add_zero, packedBit_writeBit clean _ room le_rfl, packedLen_div, packedLen_mod, if_neg (Nat.lt_irrefl _),
      accWith, testBit_add_topBit_top clean, Nat.testBit_shiftRight, Nat.add_zero]
  case elsewhere =>
    by_cases full : s.pk.nacc.toNat = 7
    · rw [writeBit_of_full _ full] at ha ⊢
      refine s.out.read_write_other (ha _ le_rfl ?_) _
      exact (oplen_succ_of_full full room).ge
    · rw [writeBit_of_notFull _ full]
      rfl
  case flen =>
    by_cases full : s.pk.nacc.toNat = 7
    · rw [writeBit_of_full _ full]
      rfl
    · rw [writeBit_of_notFull _ full]
      rfl

/-! ### A code (R146) -/

theorem Appends.refl (clean : accClean s) (c : Nat) : Appends s s c 0 :=
  ⟨rfl, clean, fun _ _ => rfl, fun _ h => absurd h (Nat.not_lt_zero _), fun _ _ => rfl, rfl⟩

theorem Appends.oplen_le {c w : Nat} (h : Appends s t c w) : s.pk.oplen.toNat ≤ t.pk.oplen.toNat := by
  rw [← packedLen_div s, ← packedLen_div t, h.len]
  exact Nat.div_le_div_right (Nat.le_add_right _ w)

/-- Appending the low `v` bits of a code and then the `w` above them is appending the low `v + w`. -/
theorem Appends.trans {c v w : Nat} (low : Appends s t c v) (high : Appends t u (c >>> v) w) :
    Appends s u c (v + w) := by
  have len : packedLen t = packedLen s + v := low.len
  refine ⟨?len, high.clean, fun j hj => ?kept, fun i hi => ?added, fun a ha => ?elsewhere, high.flen.trans low.flen⟩
  case len => rw [high.len, len, Nat.add_assoc]
  case kept => rw [high.kept j (by omega), low.kept j hj]
  case added =>
    obtain below | ⟨k, rfl⟩ := (Nat.lt_or_ge i v).imp_right Nat.exists_eq_add_of_le
    · rw [high.kept _ (by omega), low.added i below]
    · rw [← Nat.add_assoc, ← len, high.added k (by omega), Nat.testBit_shiftRight]
  case elsewhere =>
    have grown := low.oplen_le
    have grown' := high.oplen_le
    rw [high.elsewhere a fun i hi hi' => ha i (grown.trans hi) hi',
      low.elsewhere a fun i hi hi' => ha i hi (hi'.trans_le grown')]

/-- R146: WRITECODE's loop appends the bits of the code it has to go. -/
theorem appends_writeBits (clean : accClean s) (c i n : Nat) (room : packRoom s n) :
    Appends s (writeBits c i n s) (c >>> i) n := by
  induction n generalizing i s with
  | zero => exact .refl clean _
  | succ n ih =>
    have roomForBit : packRoom s 1 := (Nat.add_le_add_left n.succ_pos _).trans_lt room
    have bit := appends_writeBit clean roomForBit c i
    have roomForRest : packRoom (writeBit (bitAt c i) s) n := by
      rw [packRoom, bit.len, Nat.add_assoc, Nat.add_comm 1]
      exact room
    have rest := ih bit.clean (i + 1) roomForRest
    rw [Nat.shiftRight_add] at rest
    rw [writeBits, Nat.add_comm n]
    exact bit.trans rest

theorem accClean_writeBits (clean : accClean s) (c i n : Nat) : accClean (writeBits c i n s) := by
  induction n generalizing i s with
  | zero => exact clean
  | succ n ih =>
    refine ih ?_ (i + 1)
    rw [bitAt_eq_toNat_testBit]
    exact accClean_writeBit clean _

/-- Settles O26: WRITECODE is its loop from bit 0; ACC stays clean even where OPLEN has no room to count. -/
theorem writecodeAppendsBits : Obligations.WritecodeAppendsBits := fun code width s _ clean =>
  ⟨writeCode code width s, rfl, accClean_writeBits clean _ _ _, appends_writeBits clean _ 0 width,
    writeCode_frame code width s⟩

/-! ### The frame (R147) -/

theorem flushPartial_of_partial (h : 0 < s.pk.nacc.toNat) : flushPartial s =
    (putByte s.pk.acc s).setPk { s.pk with acc := 0, nacc := 0, oplen := narrow 32 (s.pk.oplen.toNat + 1) } :=
  if_pos h

theorem flushPartial_of_whole (h : ¬0 < s.pk.nacc.toNat) : flushPartial s = s :=
  if_neg h

theorem flushPartial_nacc (s : State) : (flushPartial s).pk.nacc = 0 := by
  by_cases h : 0 < s.pk.nacc.toNat
  · rw [flushPartial_of_partial h]
    rfl
  · rw [flushPartial_of_whole h]
    exact BitVec.eq_of_toNat_eq (Nat.eq_zero_of_not_pos h)

theorem flushPartial_acc_of_partial (h : 0 < s.pk.nacc.toNat) : (flushPartial s).pk.acc = 0 :=
  congrArg (·.pk.acc) (flushPartial_of_partial h)

theorem flushPartial_acc_of_whole (h : s.pk.nacc = 0) : (flushPartial s).pk.acc = s.pk.acc := by
  rw [flushPartial_of_whole (by rw [h]; decide)]

theorem read_flushPartial_partial (h : 0 < s.pk.nacc.toNat) :
    (flushPartial s).out.read (payloadAddr s.pk.oplen.toNat) = s.pk.acc := by
  rw [flushPartial_of_partial h]
  exact s.out.read_write_same _ _

theorem read_flushPartial_other {a : Nat} (h : 0 < s.pk.nacc.toNat → a ≠ payloadAddr s.pk.oplen.toNat) :
    (flushPartial s).out.read a = s.out.read a := by
  by_cases hn : 0 < s.pk.nacc.toNat
  · rw [flushPartial_of_partial hn]
    exact s.out.read_write_other (h hn) _
  · rw [flushPartial_of_whole hn]

/-- `P` of R147: the payload length, the partial byte included. -/
def flushedLen (s : State) : Nat := s.pk.oplen.toNat + if 0 < s.pk.nacc.toNat then 1 else 0

theorem flushedLen_of_partial (h : 0 < s.pk.nacc.toNat) : flushedLen s = s.pk.oplen.toNat + 1 :=
  congrArg _ (if_pos h)

theorem flushPartial_oplen (fits : flushedLen s < 2 ^ 32) : (flushPartial s).pk.oplen.toNat = flushedLen s := by
  by_cases h : 0 < s.pk.nacc.toNat
  · rw [flushedLen_of_partial h] at fits ⊢
    rw [flushPartial_of_partial h]
    exact narrow_toNat fits
  · rw [flushPartial_of_whole h, flushedLen, if_neg h, Nat.add_zero]

theorem read_writeLengths_other (P : Nat) {nb a : Nat} (mem : Memory 8) (h : ∀ i, i < nb → a ≠ 256 * i) :
    (writeLengths P nb mem).read a = mem.read a := by
  induction nb with
  | zero => rfl
  | succ nb ih =>
    rw [writeLengths, Memory.read_write_other _ (h nb nb.lt_succ_self), ih fun i hi => h i (hi.trans nb.lt_succ_self)]

/-- R147: sub-block `i` has what is left of the payload, 255 bytes at most. -/
theorem read_writeLengths_length (P : Nat) {nb i : Nat} (mem : Memory 8) (h : i < nb) :
    ((writeLengths P nb mem).read (256 * i)).toNat = min 255 (P - 255 * i) := by
  induction nb with
  | zero => exact absurd h i.not_lt_zero
  | succ nb ih =>
    rw [writeLengths]
    obtain below | rfl := Nat.lt_succ_iff_lt_or_eq.mp h
    · rw [Memory.read_write_other _ (by omega), ih below]
    · rw [Memory.read_write_same]
      exact Nat.mod_eq_of_lt (Nat.lt_succ_of_le (min_le_left 255 _))

/-- `NB` of R147. -/
def subBlocks (P : Nat) : Nat := (P + 254) / 255

/-- R147: the terminator comes after every length byte. -/
theorem lengthAddr_lt_terminator {P i : Nat} (h : i < subBlocks P) : 256 * i < P + subBlocks P := by
  rw [subBlocks] at h ⊢
  omega

/-- R147: the terminator comes after the last payload byte. -/
theorem payloadAddr_lt_terminator (i : Nat) : payloadAddr i < i + 1 + subBlocks (i + 1) := by
  rw [payloadAddr_eq, subBlocks]
  omega

/-- R147: what FLUSH leaves in OUT when OPLEN can hold the payload length. -/
theorem flushOut_out (fits : flushedLen s < 2 ^ 32) : (flushOut s).out =
    (writeLengths (flushedLen s) (subBlocks (flushedLen s)) (flushPartial s).out).write
      (flushedLen s + subBlocks (flushedLen s)) 0 := by
  rw [← flushPartial_oplen fits]
  rfl

theorem flushOut_flen (fits : flushedLen s < 2 ^ 32) :
    (flushOut s).pk.flen = narrow 32 (flushedLen s + subBlocks (flushedLen s) + 1) := by
  rw [← flushPartial_oplen fits]
  rfl

theorem read_flushOut_partial (fits : flushedLen s < 2 ^ 32) (h : 0 < s.pk.nacc.toNat) :
    (flushOut s).out.read (payloadAddr s.pk.oplen.toNat) = s.pk.acc := by
  have beforeTerminator := payloadAddr_lt_terminator s.pk.oplen.toNat
  rw [← flushedLen_of_partial h] at beforeTerminator
  rw [flushOut_out fits, Memory.read_write_other _ beforeTerminator.ne,
    read_writeLengths_other _ _ fun i _ => payloadAddr_ne_lengthAddr _ i, read_flushPartial_partial h]

theorem read_flushOut_length (fits : flushedLen s < 2 ^ 32) {i : Nat} (h : i < subBlocks (flushedLen s)) :
    ((flushOut s).out.read (256 * i)).toNat = min 255 (flushedLen s - 255 * i) := by
  rw [flushOut_out fits, Memory.read_write_other _ (lengthAddr_lt_terminator h).ne, read_writeLengths_length _ _ h]

theorem read_flushOut_terminator (fits : flushedLen s < 2 ^ 32) :
    (flushOut s).out.read (flushedLen s + subBlocks (flushedLen s)) = 0 := by
  rw [flushOut_out fits, Memory.read_write_same]

theorem read_flushOut_other (fits : flushedLen s < 2 ^ 32) {a : Nat}
    (notTerminator : a ≠ flushedLen s + subBlocks (flushedLen s))
    (notLength : ∀ i, i < subBlocks (flushedLen s) → a ≠ 256 * i)
    (notPartial : 0 < s.pk.nacc.toNat → a ≠ payloadAddr s.pk.oplen.toNat) :
    (flushOut s).out.read a = s.out.read a := by
  rw [flushOut_out fits, Memory.read_write_other _ notTerminator, read_writeLengths_other _ _ notLength,
    read_flushPartial_other notPartial]

/-- Settles O27: the partial byte, the length bytes and the terminator go to places of their own, so each reads back. -/
theorem flushFrames : Obligations.FlushFrames := by
  rintro s _ _ rfl rfl
  refine ⟨flushOut s, rfl, flushPartial_nacc s, flushPartial_acc_of_partial, flushPartial_acc_of_whole,
    fun fits => ?_, flushOut_frame s⟩
  refine ⟨read_flushOut_partial fits, fun i => read_flushOut_length fits, read_flushOut_terminator fits,
    flushPartial_oplen fits, fun flenFits => ?_, fun a => read_flushOut_other fits⟩
  exact (congrArg BitVec.toNat (flushOut_flen fits)).trans (narrow_toNat flenFits)

end Sys2Proof.Machine

/-! The interlace mapper is one-to-one (R285): no two stream positions below `N` share an OUT address. -/

namespace Sys2Proof.Machine

variable {H r r' y base stride off : Nat} {passes : List (Nat × Nat)}

/-! ### Rows (R281 to R283) -/

/-- R283: a row is found in the first pass left, or looked for in the others. -/
theorem rowmapGo_cons_eq_some : rowmapGo H r ((stride, off) :: passes) base = some y ↔
    (r < base + passRows H stride off ∧ y = off + stride * (r - base)) ∨
    (base + passRows H stride off ≤ r ∧ rowmapGo H r passes (base + passRows H stride off) = some y) := by
  rw [rowmapGo]
  split
  case isTrue here => simp [here, here.not_ge, eq_comm]
  case isFalse later => simp [later, Nat.le_of_not_lt later]

/-- Two passes of R281 that hold no row in common. -/
def PassesApart (p q : Nat × Nat) : Prop := ∀ j k, p.2 + p.1 * j ≠ q.2 + q.1 * k

theorem passes_pairwise_apart : Config.passes.Pairwise PassesApart := by
  simp only [Config.passes, List.pairwise_cons, List.forall_mem_cons, PassesApart]
  refine ⟨⟨?_, ?_, ?_, by simp⟩, ⟨?_, ?_, by simp⟩, ⟨?_, by simp⟩, by simp, .nil⟩ <;> omega

/-- A row found is a row of one of the passes. -/
theorem rowmapGo_mem_pass (h : rowmapGo H r passes base = some y) : ∃ p ∈ passes, ∃ k, y = p.2 + p.1 * k := by
  induction passes generalizing base with
  | nil => cases h
  | cons p rest ih =>
    obtain ⟨-, row⟩ | ⟨-, later⟩ := rowmapGo_cons_eq_some.mp h
    · exact ⟨p, List.mem_cons_self, _, row⟩
    · obtain ⟨q, hq, row⟩ := ih later
      exact ⟨q, List.mem_cons_of_mem p hq, row⟩

/-- Where the passes are apart, each row is found from one physical row only. -/
theorem rowmapGo_inj (apart : passes.Pairwise PassesApart) (strides : ∀ p ∈ passes, 0 < p.1)
    (hr : base ≤ r) (hr' : base ≤ r') (h : rowmapGo H r passes base = some y)
    (h' : rowmapGo H r' passes base = some y) : r = r' := by
  induction passes generalizing base with
  | nil => cases h
  | cons p rest ih =>
    obtain ⟨apartHere, apartRest⟩ := List.pairwise_cons.mp apart
    obtain ⟨strideHere, stridesRest⟩ := List.forall_mem_cons.mp strides
    have not_later {v base' : Nat} (row : y = p.2 + p.1 * v) {x : Nat} : rowmapGo H x rest base' ≠ some y := by
      intro later
      obtain ⟨q, hq, k, row'⟩ := rowmapGo_mem_pass later
      exact apartHere q hq v k (row.symm.trans row')
    obtain ⟨-, row⟩ | ⟨beyond, later⟩ := rowmapGo_cons_eq_some.mp h <;>
      obtain ⟨-, row'⟩ | ⟨beyond', later'⟩ := rowmapGo_cons_eq_some.mp h'
    · have := Nat.eq_of_mul_eq_mul_left strideHere (Nat.add_left_cancel (row.symm.trans row'))
      omega
    · exact absurd later' (not_later row)
    · exact absurd later (not_later row')
    · exact ih apartRest stridesRest beyond beyond' later later'

/-- R283: a physical row within the passes left is found in one of them. -/
theorem exists_rowmapGo_eq_some (hr : base ≤ r) (h : r < base + (passes.map fun p => passRows H p.1 p.2).sum) :
    ∃ y, rowmapGo H r passes base = some y := by
  induction passes generalizing base with
  | nil => exact absurd h hr.not_gt
  | cons p rest ih =>
    rw [List.map_cons, List.sum_cons, ← Nat.add_assoc] at h
    by_cases here : r < base + passRows H p.1 p.2
    · exact ⟨_, rowmapGo_cons_eq_some.mpr (.inl ⟨here, rfl⟩)⟩
    · have beyond := Nat.le_of_not_lt here
      obtain ⟨y, later⟩ := ih beyond h
      exact ⟨y, rowmapGo_cons_eq_some.mpr (.inr ⟨beyond, later⟩)⟩

/-- R282: the passes hold every row below `H`. -/
theorem sum_passRows (H : Nat) : (Config.passes.map fun p => passRows H p.1 p.2).sum = H := by
  simp only [Config.passes, List.map_cons, List.map_nil, List.sum_cons, List.sum_nil, passRows, ceilDiv]
  split_ifs <;> omega

/-- R283: below the height ROWMAP answers a row of its loop. -/
theorem rowmapGo_rowmap {hgt : Word} (hr : r < hgt.toInt.toNat) :
    rowmapGo hgt.toInt.toNat r Config.passes 0 = some (rowmap hgt r) := by
  obtain ⟨y, hy⟩ := exists_rowmapGo_eq_some (passes := Config.passes) r.zero_le
    (by rwa [sum_passRows, Nat.zero_add])
  rw [rowmap, hy]

/-- R283: no two physical rows below the height have one logical row. -/
theorem rowmap_inj {hgt : Word} (hr : r < hgt.toInt.toNat) (hr' : r' < hgt.toInt.toNat)
    (same : rowmap hgt r = rowmap hgt r') : r = r' :=
  rowmapGo_inj passes_pairwise_apart (by decide) r.zero_le r'.zero_le (rowmapGo_rowmap hr)
    (same ▸ rowmapGo_rowmap hr')

/-! ### Addresses (R284, R285) -/

theorem toNat_eq_of_toInt_pos {v : Word} (h : 0 < v.toInt) : v.toInt.toNat = v.toNat := by
  rw [BitVec.toInt_eq_toNat_cond] at h ⊢
  split_ifs at h ⊢ <;> omega

/-- R284: a stream position below `N` lies in a row below the height. -/
theorem row_lt_height {s : State} (place : PlaceOk s) {p : Nat} (hp : p < s.lat.n) :
    p / s.lat.wid.toNat < s.lat.hgt.toInt.toNat := by
  rw [toNat_eq_of_toInt_pos place.hgt]
  exact Nat.div_lt_of_lt_mul (place.n ▸ hp)

/-- R285: ADDR sends no two stream positions below `N` to one address. -/
theorem addrOf_injOn {s : State} (place : PlaceOk s) : Set.InjOn (addrOf s.lat) (Set.Iio s.lat.n) := by
  intro p hp q hq same
  unfold addrOf at same
  split_ifs at same with interlaced positive
  case neg => exact absurd place.wid positive
  case neg => exact same
  have wid : 0 < s.lat.wid.toNat := toNat_eq_of_toInt_pos place.wid ▸ Int.lt_toNat.mpr place.wid
  have row : p / s.lat.wid.toNat = q / s.lat.wid.toNat := by
    have quotient (y x : Nat) : (y * s.lat.wid.toNat + x % s.lat.wid.toNat) / s.lat.wid.toNat = y := by
      rw [Nat.mul_comm, Nat.mul_add_div wid, Nat.div_eq_of_lt (Nat.mod_lt x wid), Nat.add_zero]
    have sameRow := congrArg (· / s.lat.wid.toNat) same
    simp only [quotient] at sameRow
    exact rowmap_inj (row_lt_height place hp) (row_lt_height place hq) sameRow
  have column : p % s.lat.wid.toNat = q % s.lat.wid.toNat := Nat.add_left_cancel (row ▸ same)
  rw [← Nat.div_add_mod p s.lat.wid.toNat, row, column, Nat.div_add_mod]

end Sys2Proof.Machine

/-! The decoder: what each code class outputs, inserts and leaves alone (R183 to R188, R196). -/

namespace Sys2Proof.Machine

variable {s t : State} {k n : Nat}

/-! ### The sequence of a code (R43, R196) -/

/-- A sequence stays the code's own in any larger dictionary with the same entries (R43). -/
theorem Spells.mono {m size size' : Nat} {pre pre' : Memory 12} {suf suf' : Memory 8} {S : List Byte}
    (h : Spells m size pre suf k S) (larger : size ≤ size')
    (same : ∀ j, j < size → pre'.read j = pre.read j ∧ suf'.read j = suf.read j) :
    Spells m size' pre' suf' k S := by
  induction h with
  | literal k isLit => exact .literal k isLit
  | entry k P first below _ ih =>
    obtain ⟨samePre, sameSuf⟩ := same k below
    rw [← samePre] at ih
    rw [← sameSuf]
    exact .entry k P first (below.trans_le larger) ih

/-- R196: the loop ends at a literal. -/
theorem chain_of_literal (latch : LatchOk s) (isLit : k < 2 ^ s.lat.m.toNat) (n : Nat) :
    chain s (n + 1) k = some ([], BitVec.ofNat 8 k) := by
  have fits : k < 2 ^ 8 := isLit.trans_le (Nat.pow_le_pow_right Nat.two_pos latch.small)
  rw [chain, latch.firstFree, latch.clear, if_neg (by omega), if_pos isLit, narrow, if_pos fits]

/-- R196: an entry pushes its suffix, and the loop goes on at its PREFIX. -/
theorem chain_of_entry (latch : LatchOk s) (first : 2 ^ s.lat.m.toNat + 2 ≤ k) {suffixes : List Byte} {b : Byte}
    (rest : chain s n (s.prefixMem.read k).toNat = some (suffixes, b)) :
    chain s (n + 1) k = some (s.suffixMem.read k :: suffixes, b) := by
  rw [chain, latch.firstFree, if_pos first, rest]

/-- R43, R196: PREFIX[k] is below `k`, so `k + 1` turns of the loop reach the literal, and what they collect is `seq(k)`. -/
theorem chain_spells (latch : LatchOk s) (dict : DictOk s.lat.m.toNat s.dec.d.toNat s.prefixMem s.suffixMem)
    (hk : spellable s.lat.m.toNat s.dec.d.toNat k) (turns : k < n) :
    ∃ q : Seq, chain s n k = some (q.rest.reverse, q.first) ∧ decSpells s k q.syms := by
  obtain ⟨below, notClear, notEnd⟩ := hk
  induction n generalizing k with
  | zero => exact absurd turns k.not_lt_zero
  | succ n ih =>
    by_cases isLit : k < 2 ^ s.lat.m.toNat
    · exact ⟨⟨BitVec.ofNat 8 k, []⟩, chain_of_literal latch isLit n, .literal k isLit⟩
    · have first : 2 ^ s.lat.m.toNat + 2 ≤ k := by omega
      obtain ⟨⟨falls, notClear', notEnd'⟩, -⟩ := dict.entries k first below
      obtain ⟨q, rest, spelled⟩ := ih (by omega) (falls.trans below) notClear' notEnd'
      refine ⟨⟨q.first, q.rest ++ [s.suffixMem.read k]⟩, ?_, .entry k q.syms first below spelled⟩
      rw [List.reverse_append]
      exact chain_of_entry latch first rest

/-- R196: RESOLVE answers `seq(k)`, pushed on STK from its last symbol on. -/
theorem resolve_of_spellable {k : Code} (ready : DecReady s)
    (hk : spellable s.lat.m.toNat s.dec.d.toNat k.toNat) :
    ∃ q : Seq, resolve k s = some (q, s.setStk (s.stk.writeList 0 q.syms.reverse)) ∧ decSpells s k.toNat q.syms := by
  obtain ⟨q, chained, spelled⟩ := chain_spells ready.latch ready.dict hk k.isLt
  refine ⟨q, ?_, spelled⟩
  have syms : q.syms.reverse = q.rest.reverse ++ [q.first] := List.reverse_cons
  rw [resolve, Config.dictCap, chained, syms]
  simp only [List.reverse_reverse]

/-- Settles O34: RESOLVE's one write of `S` backwards puts symbol `j` at position `S.length - 1 - j`. -/
theorem resolveSpellsSequence : Obligations.ResolveSpellsSequence := by
  intro k s ready hk
  obtain ⟨q, resolved, spelled⟩ := resolve_of_spellable ready hk
  refine ⟨s.setStk (s.stk.writeList 0 q.syms.reverse), q.syms, ?_, spelled, fun j hj => ?_, fun a ha => ?_, rfl⟩
  · show execResolve k s = _
    rw [execResolve, resolved]
  · have inside := s.stk.read_writeList_inside 0 q.syms.reverse (q.syms.length - 1 - j)
      (by rw [List.length_reverse]; omega)
    rw [Nat.zero_add, List.getElem_reverse] at inside
    exact inside.trans (getElem_congr_idx (by omega))
  · exact Memory.read_writeList_outside 0 _ (.inr (by rwa [List.length_reverse, Nat.zero_add]))

/-! ### OUTPUT (R188) -/

theorem outputSym_out_of_below (b : Byte) (below : s.dec.ocount < s.lat.n) :
    (outputSym s b).out = s.out.write (addrOf s.lat s.dec.ocount) b := by
  rw [outputSym, if_pos below]
  rfl

theorem outputSym_out_of_full (b : Byte) (full : ¬s.dec.ocount < s.lat.n) : (outputSym s b).out = s.out := by
  rw [outputSym, if_neg full]
  rfl

@[simp] theorem outputSym_lat (s : State) (b : Byte) : (outputSym s b).lat = s.lat := by
  rw [outputSym_frame]

@[simp] theorem outputSym_ocount (s : State) (b : Byte) : (outputSym s b).dec.ocount = s.dec.ocount + 1 := by
  rw [outputSym_frame]

theorem read_outputSym_other (b : Byte) {a : Nat}
    (other : s.dec.ocount < s.lat.n → a ≠ addrOf s.lat s.dec.ocount) :
    (outputSym s b).out.read a = s.out.read a := by
  by_cases below : s.dec.ocount < s.lat.n
  · rw [outputSym_out_of_below b below, Memory.read_write_other _ (other below)]
  · rw [outputSym_out_of_full b below]

/-- R188: one symbol, then the rest of the sequence; no later symbol lands on the first one's address. -/
theorem Stored.cons {b : Byte} {S : List Byte} (inj : Set.InjOn (addrOf s.lat) (Set.Iio s.lat.n))
    (tail : Stored (outputSym s b) t S) : Stored s t (b :: S) := by
  obtain ⟨count, stored, elsewhere⟩ := tail
  simp only [outputSym_lat, outputSym_ocount, Nat.add_right_comm _ 1, Nat.add_assoc _ _ 1] at count stored elsewhere
  refine ⟨count, fun j hj below => ?_, fun a other => ?_⟩
  · cases j with
    | zero =>
      rw [elsewhere, outputSym_out_of_below b below]
      · exact Memory.read_write_same ..
      · intro j _ below' same
        have := inj below below' same
        omega
    | succ j => exact stored j (Nat.lt_of_succ_lt_succ hj) below
  · rw [elsewhere a fun j hj => other (j + 1) (Nat.succ_lt_succ hj)]
    exact read_outputSym_other b (other 0 (Nat.succ_pos _))

theorem outputSyms_stored (inj : Set.InjOn (addrOf s.lat) (Set.Iio s.lat.n)) (S : List Byte) :
    Stored s (outputSyms S s) S := by
  induction S generalizing s with
  | nil => exact ⟨rfl, fun j hj => absurd hj j.not_lt_zero, fun _ _ => rfl⟩
  | cons b S ih => exact (ih (s := outputSym s b) (by rwa [outputSym_lat])).cons inj

/-- Settles O37: symbol by symbol; ADDR keeps the symbols apart. -/
theorem outputStoresIndices : Obligations.OutputStoresIndices := by
  intro S s place
  have stored := outputSyms_stored (addrOf_injOn place) S
  refine ⟨outputSyms S s, rfl, stored, ?_⟩
  rw [stored.count]
  exact outputSyms_frame S s

/-! ### INSERT (R187) -/

theorem insertEntry_of_room (c : Code) (s0 : Byte) (valid : s.dec.prevValid = true) (room : s.dec.d.toNat < 4096) :
    insertEntry c s0 s = { s with
      prefixMem := s.prefixMem.write s.dec.d.toNat s.dec.prev
      suffixMem := s.suffixMem.write s.dec.d.toNat s0
      dec := { s.dec with d := s.dec.d + 1, prev := c, prevValid := true, dstate := .reading } } := by
  rw [insertEntry, if_pos ⟨valid, room⟩]
  rfl

theorem insertEntry_of_frozen (c : Code) (s0 : Byte) (frozen : ¬(s.dec.prevValid = true ∧ s.dec.d.toNat < 4096)) :
    insertEntry c s0 s = { s with dec := { s.dec with prev := c, prevValid := true, dstate := .reading } } := by
  rw [insertEntry, Config.dictCap, if_neg frozen]
  rfl

/-- R187: with room the entry is written, and without it only PREV, PREV_VALID and DSTATE move. -/
theorem insertEntry_inserted (c : Code) (s0 : Byte) (s : State) : Inserted s (insertEntry c s0 s) c.toNat s0 := by
  by_cases grows : s.dec.prevValid = true ∧ s.dec.d.toNat < 4096
  · obtain ⟨valid, room⟩ := grows
    rw [insertEntry_of_room c s0 valid room]
    refine ⟨rfl, rfl, rfl, fun _ _ => ⟨?_, ?_, ?_, fun k hk => ?_⟩, fun frozen => absurd ⟨valid, room⟩ frozen⟩
    · exact BitVec.toNat_add_of_lt (show s.dec.d.toNat + 1 < 2 ^ 13 by omega)
    · exact Memory.read_write_same ..
    · exact Memory.read_write_same ..
    · exact ⟨Memory.read_write_other _ hk _, Memory.read_write_other _ hk _⟩
  · rw [insertEntry_of_frozen c s0 grows]
    exact ⟨rfl, rfl, rfl, fun valid room => absurd ⟨valid, room⟩ grows, fun _ => ⟨rfl, rfl, rfl⟩⟩

theorem insertEntry_ocount (c : Code) (s0 : Byte) (s : State) : (insertEntry c s0 s).dec.ocount = s.dec.ocount := by
  unfold insertEntry
  split <;> rfl

/-- Settles O36: both branches of INSERT, the 13 bits of `D` holding `D + 1`. -/
theorem insertEffect : Obligations.InsertEffect := fun c s0 s _ =>
  ⟨insertEntry c s0 s, rfl, insertEntry_inserted c s0 s, insertEntry_ocount c s0 s, insertEntry_frame c s0 s⟩

/-! ### The data codes (R183 to R185): OUTPUT, then INSERT -/

variable (c : Code) (q : Seq)

/-- INSERT leaves OUT and OCOUNT alone, so OUTPUT's stores stay. -/
theorem emitSeq_stored (inj : Set.InjOn (addrOf s.lat) (Set.Iio s.lat.n)) : Stored s (emitSeq c q s) q.syms := by
  obtain ⟨count, stored, elsewhere⟩ := outputSyms_stored inj q.syms
  have sameOut : (emitSeq c q s).out = (outputSyms q.syms s).out := by rw [emitSeq, insertEntry_frame]
  have sameCount : (emitSeq c q s).dec.ocount = (outputSyms q.syms s).dec.ocount := insertEntry_ocount ..
  rw [← sameCount] at count
  rw [← sameOut] at stored elsewhere
  exact ⟨count, stored, elsewhere⟩

/-- OUTPUT leaves alone what INSERT reads. -/
theorem emitSeq_inserted (s : State) : Inserted s (emitSeq c q s) c.toNat q.first := by
  obtain ⟨prev, valid, reading, grown, frozen⟩ := insertEntry_inserted c q.first (outputSyms q.syms s)
  rw [← emitSeq, outputSyms_frame] at grown frozen
  exact ⟨prev, valid, reading, grown, frozen⟩

theorem emitSeq_frame (s : State) : emitSeq c q s = { s with
    out := (emitSeq c q s).out, dec := (emitSeq c q s).dec
    prefixMem := (emitSeq c q s).prefixMem, suffixMem := (emitSeq c q s).suffixMem } := by
  rw [emitSeq, insertEntry_frame, outputSyms_frame]

/-- Settles O38: LIT is OUTPUT and INSERT for `S = [c]`. -/
theorem litEffect : Obligations.LitEffect := by
  intro c s place _
  have inserted := emitSeq_inserted (c.setWidth 12) ⟨c, []⟩ s
  rw [BitVec.toNat_setWidth_of_le (by decide)] at inserted
  exact ⟨_, rfl, emitSeq_stored _ _ (addrOf_injOn place), inserted, emitSeq_frame ..⟩

/-- OUTPUT and INSERT once RESOLVE has left `stk` in STK: neither looks at STK. -/
theorem emitSeq_after_resolve (place : PlaceOk s) {stk : Memory 8} (ht : t = emitSeq c q (s.setStk stk)) :
    Stored s t q.syms ∧ Inserted s t c.toNat q.first ∧ t = { s with
      out := t.out, stk := t.stk, dec := t.dec, prefixMem := t.prefixMem, suffixMem := t.suffixMem } := by
  obtain ⟨count, stored, elsewhere⟩ := emitSeq_stored (s := s.setStk stk) c q (addrOf_injOn (s := s) place)
  obtain ⟨prev, valid, reading, grown, frozen⟩ := emitSeq_inserted c q (s.setStk stk)
  have frame := emitSeq_frame c q (s.setStk stk)
  rw [← ht] at count stored elsewhere prev valid reading grown frozen frame
  refine ⟨⟨count, stored, elsewhere⟩, ⟨prev, valid, reading, grown, frozen⟩, ?_⟩
  have sameStk : t.stk = stk := congrArg State.stk frame
  rw [sameStk]
  exact frame

/-- Settles O39: RESOLVE answers `seq(c)`, which is output and inserted. -/
theorem dictEffect : Obligations.DictEffect := by
  intro c s ready place first below
  obtain ⟨q, resolved, spelled⟩ := resolve_of_spellable (k := c) ready ⟨below, by omega, by omega⟩
  obtain ⟨stored, inserted, frame⟩ := emitSeq_after_resolve c q place rfl
  refine ⟨_, q.syms, q.first, ?_, spelled, rfl, stored, inserted, frame⟩
  show execDict c s = _
  rw [execDict, resolved]

/-- R185: the entry inserted at `D` spells PREV's sequence and the new symbol. -/
theorem Inserted.spells {c' : Nat} {s0 : Byte} {P : List Byte} (inserted : Inserted s t c' s0)
    (lat : t.lat = s.lat) (valid : s.dec.prevValid = true) (room : s.dec.d.toNat < 4096)
    (lower : 2 ^ s.lat.m.toNat + 2 ≤ s.dec.d.toNat) (spelled : decSpells s s.dec.prev.toNat P) :
    decSpells t s.dec.d.toNat (P ++ [s0]) := by
  obtain ⟨size, pre, suf, other⟩ := inserted.grown valid room
  have kept : Spells s.lat.m.toNat (s.dec.d.toNat + 1) t.prefixMem t.suffixMem s.dec.prev.toNat P :=
    spelled.mono (Nat.le_succ _) fun j hj => other j hj.ne
  rw [← pre] at kept
  rw [decSpells, lat, size, ← suf]
  exact .entry _ P lower (Nat.lt_succ_self _) kept

/-- Settles O40: RESOLVE answers `P = seq(PREV)`; `P ++ [P[0]]` is output, and the entry inserted at `D` spells it. -/
theorem deferEffect : Obligations.DeferEffect := by
  intro s ready place room valid
  obtain ⟨p, resolved, spelled⟩ := resolve_of_spellable ready (ready.prev valid)
  obtain ⟨stored, inserted, frame⟩ := emitSeq_after_resolve (narrow 12 s.dec.d.toNat) p.deferred place rfl
  rw [narrow_toNat room] at inserted
  have named := inserted.spells (by rw [frame]) valid room ready.dict.lower spelled
  refine ⟨_, p.syms, p.first, ?_, spelled, rfl, stored, inserted, named, frame⟩
  show execDefer s = _
  rw [execDefer, resolved]

end Sys2Proof.Machine

/-! The ends of a decode: FINISH's count check (R190) and the raise of BADCODE (R186). -/

namespace Sys2Proof.Machine

/-- Settles O20: both ends publish; `N` reads back where OUT_LEN can hold it. -/
theorem finishPublishes : Obligations.FinishPublishes := by
  refine fun s => ⟨fun counted => ?_, fun miscounted => if_neg miscounted, rfl⟩
  exact ⟨publish (narrow 32 s.lat.n) s.unp.icons s, if_pos counted, narrow_toNat, rfl⟩

/-- Settles O41: the comparison of `c` with `D` picks the cause, and the cause fixes STATUS. -/
theorem badcodeAborts : Obligations.BadcodeAborts := by
  refine fun c s => ⟨_, rfl, rfl, fun above => ?_, fun atEnd => ?_⟩
  · rw [if_pos above]
    exact ⟨rfl, rfl⟩
  · rw [if_neg atEnd.not_gt]
    exact ⟨rfl, rfl⟩

end Sys2Proof.Machine

/-! The encoder's steps (R237 to R242): what INSERT_E stores and when it resets, what MISS and ENC_STEP are made of, and
that a code it emits fits its width (R249). -/

namespace Sys2Proof.Machine

variable {s s' t t' : State}

/-! ### Emissions (R236) -/

/-- What the packer took shows in OUT and the packer's cursor alone. -/
theorem Appends.congr {c w : Nat} (h : Appends s t c w) (before : s'.out = s.out ∧ s'.pk = s.pk)
    (after : t'.out = t.out ∧ t'.pk = t.pk) : Appends s' t' c w := by
  obtain ⟨len, clean, kept, added, elsewhere, flen⟩ := h
  obtain ⟨out, pk⟩ := before
  obtain ⟨out', pk'⟩ := after
  constructor <;> simp only [packedLen, packedBit, accClean, out, pk, out', pk'] at * <;> assumption

/-- R236: EMIT appends its code at `Wd(DSIZE)`, at most 12 bits. -/
theorem appends_emitCode (clean : accClean s) (room : packRoom s 12) (c : Code) :
    Appends s (emitCode c s) c.toNat (Wd s.enc.dsize.toNat) :=
  appends_writeBits clean c.toNat 0 _ ((Nat.add_le_add_left (Wd_le_twelve _) _).trans_lt room)

/-! ### INSERT_E (R240) -/

/-- The entry `(p, c)` put at code ESIZE, and ESIZE counted up (R240). -/
def storeEntry (p : Code) (c : Byte) (s : State) : State :=
  ((s.setPrefix (s.prefixMem.write s.enc.esize.toNat p)).setSuffix
    (s.suffixMem.write s.enc.esize.toNat c)).setEnc { s.enc with esize := s.enc.esize + 1 }

theorem storeEntry_stored (p : Code) (c : Byte) (s : State) : EntryStored s (storeEntry p c s) p c :=
  ⟨Memory.read_write_same .., Memory.read_write_same ..,
    fun _ other => ⟨Memory.read_write_other _ other _, Memory.read_write_other _ other _⟩⟩

/-- The 13 bits of ESIZE hold the cap. -/
theorem storeEntry_esize (p : Code) (c : Byte) (below : s.enc.esize.toNat < 4096) :
    (storeEntry p c s).enc.esize.toNat = s.enc.esize.toNat + 1 :=
  BitVec.toNat_add_of_lt (show s.enc.esize.toNat + 1 < 2 ^ 13 by omega)

/-- R240: below the cap the entry is stored, and the reset follows exactly where that fills the dictionary in the mode
that resets (R242). -/
theorem insertE_of_below (p : Code) (c : Byte) (below : s.enc.esize.toNat < 4096) : insertE p c s =
    if s.enc.esize.toNat = 4095 ∧ s.lat.nr = false then clearFull (storeEntry p c s) else storeEntry p c s := by
  have filled : (storeEntry p c s).enc.esize.toNat = Config.dictCap ↔ s.enc.esize.toNat = 4095 := by
    rw [storeEntry_esize p c below, Config.dictCap]
    omega
  have inserted : insertE p c s = if (storeEntry p c s).enc.esize.toNat = Config.dictCap ∧ s.lat.nr = false then
      clearFull (storeEntry p c s) else storeEntry p c s := if_pos below
  simp only [inserted, filled]

/-- R248: at the cap nothing is inserted. -/
theorem insertE_of_full (p : Code) (c : Byte) (full : 4096 ≤ s.enc.esize.toNat) : insertE p c s = s :=
  if_neg full.not_gt

/-- R242: the reset touches the packer, both sizes and FIRSTD. -/
theorem clearFull_frame (s : State) : clearFull s = { s with
    out := (clearFull s).out, pk := (clearFull s).pk
    enc := { s.enc with esize := (clearFull s).enc.esize, dsize := (clearFull s).enc.dsize, firstd := true } } := by
  unfold clearFull resetSizes
  rw [emitCode_frame]
  rfl

/-- R242: both sizes return to FIRST_FREE. -/
theorem clearFull_sizes (s : State) : (clearFull s).enc.esize.toNat = s.lat.firstFree.toNat ∧
    (clearFull s).enc.dsize.toNat = s.lat.firstFree.toNat := by
  unfold clearFull
  rw [emitCode_frame]
  exact ⟨BitVec.toNat_setWidth_of_le (by decide), BitVec.toNat_setWidth_of_le (by decide)⟩

/-- R242: the reset appends CLEAR. -/
theorem appends_clearFull (clean : accClean s) (room : packRoom s 12) :
    Appends s (clearFull s) s.lat.clear.toNat (Wd s.enc.dsize.toNat) := by
  have emitted := appends_emitCode clean room (s.lat.clear.setWidth 12)
  rw [BitVec.toNat_setWidth_of_le (by decide)] at emitted
  exact emitted.congr ⟨rfl, rfl⟩ ⟨rfl, rfl⟩

/-- Settles O46: the two ways past `insertE_of_below`, and the cap. -/
theorem insertEEffect : Obligations.InsertEEffect := by
  refine fun p c s _ clean => ⟨fun keeps => ?keeps, fun last mode => ?resets, fun full => ?full⟩
  case keeps =>
    have below : s.enc.esize.toNat < 4096 := by omega
    have noReset : ¬(s.enc.esize.toNat = 4095 ∧ s.lat.nr = false) := by
      rintro ⟨last, mode⟩
      obtain below | ⟨-, noreset⟩ := keeps
      · exact below.ne last
      · exact absurd noreset (Bool.eq_false_iff.mp mode)
    refine ⟨storeEntry p c s, ?_, storeEntry_stored p c s, storeEntry_esize p c below, rfl⟩
    exact congrArg _ ((insertE_of_below p c below).trans (if_neg noReset))
  case resets =>
    have below : s.enc.esize.toNat < 4096 := by omega
    have frame := clearFull_frame (storeEntry p c s)
    obtain ⟨esize, dsize⟩ := clearFull_sizes (storeEntry p c s)
    obtain ⟨pre, suf, other⟩ := storeEntry_stored p c s
    refine ⟨clearFull (storeEntry p c s), ?_, ?_, fun room => ?_, esize, dsize, ?_⟩
    · exact congrArg _ ((insertE_of_below p c below).trans (if_pos ⟨last, mode⟩))
    · rw [frame]
      exact ⟨pre, suf, other⟩
    · exact (appends_clearFull (s := storeEntry p c s) clean room).congr ⟨rfl, rfl⟩ ⟨rfl, rfl⟩
    · rw [frame]
      rfl
  case full => exact congrArg _ (insertE_of_full p c full.ge)

/-! ### MISS (R239) -/

/-- Settles O47: MISS is written as that sequence; a byte below `2^m` is neither CLEAR nor END. -/
theorem missEffect : Obligations.MissEffect := by
  intro c s
  have value : (miss c s).enc.cur.toNat = c.toNat := BitVec.toNat_setWidth_of_le (by decide)
  refine ⟨sendData s.enc.cur s, _, miss c s, rfl, rfl, rfl, value, rfl, fun isLit sized => ?_⟩
  rw [value]
  exact ⟨isLit.trans_le sized, isLit.ne, by omega⟩

/-! ### ENC_STEP (R237) -/

@[simp] theorem sendData_ipos (c : Code) (s : State) : (sendData c s).enc.ipos = s.enc.ipos := by
  unfold sendData
  rw [emitCode_frame]
  rfl

@[simp] theorem insertE_ipos (p : Code) (c : Byte) (s : State) : (insertE p c s).enc.ipos = s.enc.ipos := by
  obtain below | full := Nat.lt_or_ge s.enc.esize.toNat 4096
  · rw [insertE_of_below p c below]
    split
    · rw [clearFull_frame]
      rfl
    · rfl
  · rw [insertE_of_full p c full]

/-- R239: MISS takes no index. -/
@[simp] theorem miss_ipos (c : Byte) (s : State) : (miss c s).enc.ipos = s.enc.ipos :=
  (insertE_ipos ..).trans (sendData_ipos ..)

/-- R237: an index below `N` is counted where IPOS can hold `N`. -/
theorem nextIndex_ipos {N : Nat} (fits : N < 2 ^ 32) (left : s.enc.ipos.toNat < N) :
    (nextIndex s).enc.ipos.toNat = s.enc.ipos.toNat + 1 :=
  narrow_toNat (Nat.lt_of_le_of_lt left fits)

/-- The lookup answers where there is an entry (R51). -/
theorem lookup_of_encEntry {c : Byte} {k : Nat} (entry : encEntry s c k) :
    ∃ k', lookup s c = some k' ∧ encEntry s c k' := by
  cases found : lookup s c with
  | some k' => exact ⟨k', rfl, lookup_some found⟩
  | none =>
    obtain ⟨first, below, stands⟩ := entry
    exact absurd stands (lookup_none found k first below)

theorem lookup_of_no_encEntry {c : Byte} (noEntry : ∀ k, ¬encEntry s c k) : lookup s c = none :=
  Option.eq_none_iff_forall_ne_some.mpr fun k found => noEntry k (lookup_some found)

/-- R237: with an index left that extends the match, ENC_STEP is EXTEND. -/
theorem exec_encStep_of_hit {k : Nat} (left : s.enc.ipos.toNat < s.lat.n)
    (found : lookup s (s.inp.read s.enc.ipos.toNat) = some k) :
    exec .encStep s = .next (nextIndex (setCur (narrow 12 k) s)) := by
  simp only [exec, execEncStep, encStep, if_pos left, found]

/-- R237: with an index left that does not, it is MISS. -/
theorem exec_encStep_of_miss (left : s.enc.ipos.toNat < s.lat.n)
    (absent : lookup s (s.inp.read s.enc.ipos.toNat) = none) :
    exec .encStep s = .next (nextIndex (miss (s.inp.read s.enc.ipos.toNat) s)) := by
  simp only [exec, execEncStep, encStep, if_pos left, absent]

/-- R237: with none left it is FINAL. -/
theorem exec_encStep_of_ended (ended : s.lat.n ≤ s.enc.ipos.toNat) :
    exec .encStep s = .next (finalMatch s) := by
  simp only [exec, execEncStep, encStep, if_neg ended.not_gt]

/-- Settles O48: the lookup decides between EXTEND and MISS; IPOS stays below `N`, so it counts. -/
theorem encStepEffect : Obligations.EncStepEffect := by
  refine fun s => ⟨fun left fits cap => ⟨fun k entry => ?hit, fun noEntry => ?miss⟩, fun ended => ?final⟩
  case hit =>
    obtain ⟨k', found, entry'⟩ := lookup_of_encEntry entry
    obtain ⟨-, below, -⟩ := lookup_some found
    exact ⟨_, k', exec_encStep_of_hit left found, entry', narrow_toNat (below.trans_le cap),
      nextIndex_ipos fits left, rfl⟩
  case miss =>
    refine ⟨_, _, rfl, exec_encStep_of_miss left (lookup_of_no_encEntry noEntry), ?_, rfl⟩
    rw [nextIndex_ipos fits (by rwa [miss_ipos]), miss_ipos]
  case final => exact ⟨_, exec_encStep_of_ended ended, rfl⟩

/-! ### Widths (R249) -/

/-- A code that is assigned, or the next to be, in a dictionary of `D` codes fits `Wd(D)` bits. -/
theorem lt_two_pow_Wd {c D : Nat} (known : c ≤ D) (fits : c < 4096) : c < 2 ^ Wd D :=
  (lt_min (Nat.lt_succ_of_le known) fits).trans_le (min_le_two_pow_Wd D)

/-- CLEAR and END fit the width of every size a dictionary has. -/
theorem control_lt_two_pow_Wd {m d : Nat} (small : m ≤ 8) (sized : 2 ^ m + 2 ≤ d) :
    2 ^ m < 2 ^ Wd d ∧ 2 ^ m + 1 < 2 ^ Wd d := by
  have literals := Nat.pow_le_pow_right Nat.two_pos small
  exact ⟨lt_two_pow_Wd (by omega) (by omega), lt_two_pow_Wd (by omega) (by omega)⟩

/-- R233, R249: DSIZE is at most one entry behind ESIZE, so every assigned code is at most DSIZE. -/
theorem EncInv.esize_le_dsize_succ (inv : EncInv s) (encoding : s.phase = .encode) :
    s.enc.esize.toNat ≤ s.enc.dsize.toNat + 1 := by
  have upper := (inv.dict encoding).upper
  cases firstd : s.enc.firstd with
  | true =>
    obtain ⟨dsize, esize⟩ := inv.first encoding firstd
    omega
  | false =>
    obtain ⟨growing, full⟩ := inv.later encoding firstd
    omega

/-- Settles O49: the bound on CUR is the dictionary's, and on CLEAR and END `m`'s. -/
theorem emittedCodesFit : Obligations.EmittedCodesFit := by
  intro s run inv encoding
  obtain ⟨below, -, -⟩ := inv.cur encoding
  have lag := inv.esize_le_dsize_succ encoding
  obtain ⟨⟨-, small⟩, -⟩ := run.checked (by rw [encoding]; decide) (by rw [encoding]; decide)
  exact ⟨lt_two_pow_Wd (by omega) s.enc.cur.isLt, fun _ => control_lt_two_pow_Wd small⟩

end Sys2Proof.Machine

/-! The round trip (R251): what DECODE reads back from what ENCODE wrote, layer by layer: the framing (R108, R147), the
bits (R74, R101), the codes (R231 to R246), the raster (R284). -/

namespace Sys2Proof.Machine

/-! ### Framing (R108, R147, R150) -/

theorem txFrame_nil : txFrame [] = [0#8] := rfl

/-- R147: the first sub-block of a payload, and the frame of the rest. -/
theorem txFrame_of_ne_nil {payload : List Byte} (h : payload ≠ []) : txFrame payload =
    BitVec.ofNat 8 (min 255 payload.length) :: (payload.take 255 ++ txFrame (payload.drop 255)) := by
  have blocks : ceilDiv payload.length 255 = ceilDiv (payload.drop 255).length 255 + 1 := by
    have := List.length_pos_iff.mpr h
    rw [List.length_drop, ceilDiv, ceilDiv]
    omega
  rw [txFrame, blocks, List.range_succ_eq_map, List.flatMap_cons, List.flatMap_map, txFrame]
  simp only [Nat.mul_succ, Nat.mul_zero, Nat.sub_zero, List.drop_zero, List.length_drop, List.drop_drop,
    Nat.add_comm _ 255, Nat.sub_sub, List.cons_append, List.append_assoc]

/-- R150: a sub-block passed. -/
theorem txDeframe_subblock {L : Byte} {block : List Byte} (declared : L.toNat = block.length) (nonempty : block ≠ [])
    (n : Nat) (rest payload : List Byte) (consumed : Nat) :
    txDeframe (n + 1) (L :: (block ++ rest)) payload consumed =
      txDeframe n rest (payload ++ block) (consumed + 1 + block.length) := by
  have notTerm : L ≠ 0#8 := by
    rintro rfl
    exact nonempty (List.length_eq_zero_iff.mp declared.symm)
  have whole : ¬(block ++ rest).length < block.length := by simp
  rw [txDeframe, if_neg notTerm, declared, if_neg whole, List.drop_left, List.take_left]

/-- R150 to R152: deframing takes the payload back out of its frame and consumes all of it. -/
theorem txDeframe_txFrame {n : Nat} (payload before : List Byte) (consumed : Nat)
    (turns : (txFrame payload).length ≤ n) : txDeframe n (txFrame payload) before consumed =
      .ok (before ++ payload, consumed + (txFrame payload).length) := by
  induction n generalizing payload before consumed with
  | zero => simp [txFrame] at turns
  | succ n ih =>
    by_cases h : payload = []
    · subst h
      simp [txFrame_nil, txDeframe]
    · rw [txFrame_of_ne_nil h, List.length_cons, List.length_append] at turns ⊢
      have declared : (BitVec.ofNat 8 (min 255 payload.length)).toNat = (payload.take 255).length := by
        rw [List.length_take, BitVec.toNat_ofNat, Nat.mod_eq_of_lt (by omega)]
      rw [txDeframe_subblock declared (by simpa using h), ih _ _ _ (by omega), List.append_assoc,
        List.take_append_drop]
      congr 2
      omega

/-! ### Bits (R74, R101) -/

/-- R74: bit `k` of a payload is bit `k % 8` of byte `k / 8`. -/
theorem bitsOfBytes_getElem? (bytes : List Byte) (k : Nat) :
    (bitsOfBytes bytes)[k]? = bytes[k / 8]?.map (·.getLsbD (k % 8)) := by
  induction bytes generalizing k with
  | nil => rfl
  | cons b bytes ih =>
    rw [bitsOfBytes, List.flatMap_cons, ← bitsOfBytes]
    obtain here | ⟨k, rfl⟩ := (Nat.lt_or_ge k 8).imp_right Nat.exists_eq_add_of_le
    · rw [List.getElem?_append_left (by simpa), Nat.div_eq_of_lt here, Nat.mod_eq_of_lt here]
      simp [here]
    · rw [List.getElem?_append_right (by simp)]
      simp [ih, Nat.add_comm 8]

theorem length_bitsOfBytes (bytes : List Byte) : (bitsOfBytes bytes).length = 8 * bytes.length := by
  simp [bitsOfBytes, Nat.mul_comm]

/-- R74: byte `i` holds the bits from `8 * i` on. -/
theorem bytesOfBits_getElem? (bits : List Bool) {k : Nat} (h : k < bits.length) :
    (bytesOfBits bits)[k / 8]?.map (·.getLsbD (k % 8)) = bits[k]? := by
  have place : k / 8 < ceilDiv bits.length 8 := by
    rw [ceilDiv]
    omega
  have inByte : k % 8 < 8 := Nat.mod_lt k (by decide)
  rw [bytesOfBits, List.getElem?_map, List.getElem?_range place, Option.map_some, Option.map_some,
    BitVec.getLsbD_ofNat, testBit_sumBits (fun j => bits.getD (8 * (k / 8) + j) false) inByte, Nat.div_add_mod,
    List.getElem?_eq_getElem h, List.getD_eq_getElem _ _ h, decide_eq_true inByte, Bool.true_and]

/-- R74, R147: the payload bits begin with the bits packed; what is left of the last byte follows. -/
theorem prefix_bitsOfBytes_bytesOfBits (bits : List Bool) : bits <+: bitsOfBytes (bytesOfBits bits) := by
  rw [List.prefix_iff_getElem?]
  intro k h
  rw [bitsOfBytes_getElem?, bytesOfBits_getElem? bits h, List.getElem?_eq_getElem h]

@[simp] theorem length_codeBits (c w : Nat) : (codeBits c w).length = w := by
  simp [codeBits]

/-- R101: a code that fits its width is read back from its bits. -/
theorem sumBits_codeBits_append {c w : Nat} (fits : c < 2 ^ w) (bits : List Bool) :
    sumBits (fun i => ((codeBits c w ++ bits).getD i false).toNat) w = c := by
  refine Nat.eq_of_testBit_eq fun i => ?_
  obtain h | h := Nat.lt_or_ge i w
  · have inCode : i < (codeBits c w).length := h.trans_eq (length_codeBits c w).symm
    rw [testBit_sumBits _ h, List.getD_append _ _ _ _ inCode]
    simp [codeBits, h]
  · have wide := Nat.pow_le_pow_right Nat.two_pos h
    rw [Nat.testBit_lt_two_pow (fits.trans_le wide), Nat.testBit_lt_two_pow ((sumBits_lt _ w).trans_le wide)]

@[simp] theorem drop_codeBits_append (c w : Nat) (bits : List Bool) : (codeBits c w ++ bits).drop w = bits :=
  List.drop_left' (length_codeBits c w)

@[simp] theorem enough_codeBits_append (c w : Nat) (bits : List Bool) : ¬(codeBits c w ++ bits).length < w := by
  simp

/-! ### The reader's side: one code at a time (R189) -/

/-- The reader, in the state of `table`, `prev` and `emitted`, takes `bits` to `indices`, however many codes beyond
those bits it may read. -/
def Decodes (m : Nat) (table : List (List Byte)) (prev : Option (List Byte)) (bits : List Bool)
    (emitted indices : List Byte) : Prop :=
  ∀ n, bits.length < n → txDecodeCodes m n bits table prev emitted = .ok indices

variable {m c : Nat} {table : List (List Byte)} {prev : Option (List Byte)} {bits : List Bool}
  {emitted indices S W : List Byte}

/-- A code is at least one bit, so the turn that reads it leaves turns enough for the bits after it. -/
theorem Decodes.of_turn (turn : ∀ n, bits.length < n →
      txDecodeCodes m (n + 1) (codeBits c (Wd (2 ^ m + 2 + table.length)) ++ bits) table prev emitted = .ok indices) :
    Decodes m table prev (codeBits c (Wd (2 ^ m + 2 + table.length)) ++ bits) emitted indices := by
  have wide : 0 < Wd (2 ^ m + 2 + table.length) := Nat.pos_of_ne_zero fun h => by
    have holds := min_le_two_pow_Wd (2 ^ m + 2 + table.length)
    have literals := Nat.two_pow_pos m
    rw [h] at holds
    omega
  intro n turns
  rw [List.length_append, length_codeBits] at turns
  cases n with
  | zero => exact absurd turns (Nat.not_lt_zero _)
  | succ n => exact turn n (by omega)

theorem Decodes.clear (fits : 2 ^ m < 2 ^ Wd (2 ^ m + 2 + table.length))
    (rest : Decodes m [] none bits emitted indices) :
    Decodes m table prev (codeBits (2 ^ m) (Wd (2 ^ m + 2 + table.length)) ++ bits) emitted indices :=
  .of_turn fun n turns => by
    simp only [txDecodeCodes, enough_codeBits_append, sumBits_codeBits_append fits, drop_codeBits_append, if_false,
      if_true, rest n turns]

theorem Decodes.ended (fits : 2 ^ m + 1 < 2 ^ Wd (2 ^ m + 2 + table.length)) :
    Decodes m table prev (codeBits (2 ^ m + 1) (Wd (2 ^ m + 2 + table.length)) ++ bits) emitted emitted :=
  .of_turn fun n _ => by
    simp only [txDecodeCodes, enough_codeBits_append, sumBits_codeBits_append fits, if_false, if_true,
      Nat.succ_ne_self]

theorem Decodes.data (fits : c < 2 ^ Wd (2 ^ m + 2 + table.length)) (notClear : c ≠ 2 ^ m)
    (notEnd : c ≠ 2 ^ m + 1) (seq : txSeq m table prev c = some S)
    (rest : Decodes m (txInsert m table prev S) (some S) bits (emitted ++ S) indices) :
    Decodes m table prev (codeBits c (Wd (2 ^ m + 2 + table.length)) ++ bits) emitted indices :=
  .of_turn fun n turns => by
    simp only [txDecodeCodes, enough_codeBits_append, sumBits_codeBits_append fits, drop_codeBits_append, if_false,
      notClear, notEnd, seq, rest n turns]

/-! ### What a code stands for, on both sides (R105, R185, R187, R231) -/

theorem txSeq_literal (isLit : c < 2 ^ m) : txSeq m table prev c = some [BitVec.ofNat 8 c] := if_pos isLit

theorem txSeq_entry {i : Nat} (below : i < table.length) : txSeq m table prev (2 ^ m + 2 + i) = table[i]? := by
  rw [txSeq, if_neg (by omega), if_pos (by omega), Nat.add_sub_cancel_left]

/-- R185: the code about to be assigned. -/
theorem txSeq_next (room : 2 ^ m + 2 + table.length < 4096) :
    txSeq m table prev (2 ^ m + 2 + table.length) = prev.map fun P => P ++ P.take 1 := by
  rw [txSeq, if_neg (by omega), if_neg (by omega), if_pos ⟨rfl, room⟩]

/-- R187: with a previous code and room the table grows, and otherwise it stays. -/
theorem txInsert_cases (m : Nat) (table : List (List Byte)) (prev : Option (List Byte)) (S : List Byte) :
    (∃ P, prev = some P ∧ 2 ^ m + 2 + table.length < 4096 ∧ txInsert m table prev S = table ++ [P ++ S.take 1]) ∨
    ((prev = none ∨ 4096 ≤ 2 ^ m + 2 + table.length) ∧ txInsert m table prev S = table) := by
  cases prev with
  | none => exact .inr ⟨.inl rfl, rfl⟩
  | some P =>
    rw [txInsert]
    split
    case isTrue room => exact .inl ⟨P, rfl, room, rfl⟩
    case isFalse full => exact .inr ⟨.inr (Nat.le_of_not_lt full), rfl⟩

/-- R187 reads no more of a sequence than its first symbol. -/
theorem txInsert_append (nonempty : W ≠ []) (S : List Byte) :
    txInsert m table prev (W ++ S) = txInsert m table prev W := by
  have first : (W ++ S).take 1 = W.take 1 :=
    List.take_append_of_le_length (List.length_pos_iff.mpr nonempty)
  simp only [txInsert, first]

/-- R233: DSIZE counts what the reader's insertion leaves. -/
theorem txDataSent_eq_size (m : Nat) (table : List (List Byte)) (prev : Option (List Byte)) (S : List Byte) :
    txDataSent (2 ^ m + 2 + table.length) prev.isNone = 2 ^ m + 2 + (txInsert m table prev S).length := by
  obtain ⟨P, rfl, room, inserted⟩ | ⟨rfl | full, inserted⟩ := txInsert_cases m table prev S
  · rw [inserted, txDataSent, if_pos ⟨rfl, room⟩, List.length_append]
    rfl
  · rfl
  · rw [inserted, txDataSent, if_neg (by omega)]

theorem txCode_entry (long : 2 ≤ W.length) : txCode m table W = 2 ^ m + 2 + table.findIdx (· == W) := by
  match W, long with
  | _ :: _ :: _, _ => rfl

/-- R231: the encoder's match is in its dictionary: a literal, or an entry. -/
def Matched (m : Nat) (table : List (List Byte)) (W : List Byte) : Prop :=
  (∃ b : Byte, W = [b] ∧ b.toNat < 2 ^ m) ∨ (2 ≤ W.length ∧ W ∈ table)

theorem Matched.ne_nil (h : Matched m table W) : W ≠ [] := by
  rintro rfl
  obtain ⟨b, same, -⟩ | ⟨long, -⟩ := h
  · cases same
  · cases long

/-- R231: the match's code is a literal's, or its entry's place. -/
theorem Matched.code (h : Matched m table W) :
    (∃ b : Byte, W = [b] ∧ b.toNat < 2 ^ m ∧ txCode m table W = b.toNat) ∨
    ∃ i, txCode m table W = 2 ^ m + 2 + i ∧ i < table.length ∧ table[i]? = some W := by
  obtain ⟨b, rfl, isLit⟩ | ⟨long, isEntry⟩ := h
  · exact .inl ⟨b, rfl, isLit, rfl⟩
  · have found : table.findIdx (· == W) < table.length :=
      List.findIdx_lt_length_of_exists ⟨W, isEntry, beq_self_eq_true W⟩
    refine .inr ⟨_, txCode_entry long, found, ?_⟩
    rw [List.getElem?_eq_getElem found, beq_iff_eq.mp (List.findIdx_getElem (w := found))]

/-! ### Encoder and reader in step (R233, R247, R251) -/

/-- The encoder, of dictionary `enc` and match `W`, is in step with the reader, of dictionary `dec` and previous
sequence `prev`: the reader's insertion for the match's code makes the two dictionaries one. -/
structure InStep (m : Nat) (enc : List (List Byte)) (W : List Byte) (dec : List (List Byte))
    (prev : Option (List Byte)) : Prop where
  same     : txInsert m dec prev W = enc
  fits     : 2 ^ m + 2 + enc.length ≤ 4096
  matched  : Matched m enc W
  nonempty : ∀ P ∈ prev, P ≠ []

variable {enc dec : List (List Byte)} {b : Byte}

/-- At the start of a span both dictionaries hold literals only. -/
theorem InStep.start (small : m ≤ 8) (isLit : b.toNat < 2 ^ m) : InStep m [] [b] [] none := by
  have literals := Nat.pow_le_pow_right Nat.two_pos small
  have fits : 2 ^ m + 2 + 0 ≤ 4096 := by omega
  exact ⟨rfl, fits, .inl ⟨b, rfl, isLit⟩, by simp⟩

/-- R237: the reader sees nothing of a match that grows. -/
theorem InStep.extend (step : InStep m enc W dec prev) (isEntry : W ++ [b] ∈ enc) :
    InStep m enc (W ++ [b]) dec prev := by
  have nonempty := step.matched.ne_nil
  refine ⟨(txInsert_append nonempty [b]).trans step.same, step.fits, .inr ⟨?_, isEntry⟩, step.nonempty⟩
  rw [List.length_append]
  exact Nat.succ_le_succ (List.length_pos_iff.mpr nonempty)

/-- R240: below the cap the encoder inserts what the reader will at its next code. -/
theorem InStep.insert (step : InStep m enc W dec prev) (room : 2 ^ m + 2 + enc.length < 4096)
    (isLit : b.toNat < 2 ^ m) : InStep m (enc ++ [W ++ [b]]) [b] enc (some W) := by
  refine ⟨if_pos room, ?_, .inl ⟨b, rfl, isLit⟩, by simpa using step.matched.ne_nil⟩
  rw [List.length_append]
  exact room

/-- R248: at the cap neither side inserts. -/
theorem InStep.frozen (step : InStep m enc W dec prev) (full : ¬2 ^ m + 2 + enc.length < 4096)
    (isLit : b.toNat < 2 ^ m) : InStep m enc [b] enc (some W) :=
  ⟨if_neg full, step.fits, .inl ⟨b, rfl, isLit⟩, by simpa using step.matched.ne_nil⟩

/-- R185, R251: the reader gives the match's code the match. The one entry it does not hold yet is PREV's sequence and
the match's first symbol; when the match is that entry, that symbol is PREV's own. -/
theorem InStep.txSeq_txCode (step : InStep m enc W dec prev) : txSeq m dec prev (txCode m enc W) = some W := by
  obtain ⟨b, rfl, isLit, code⟩ | ⟨i, code, below, isEntry⟩ := step.matched.code
  · rw [code, txSeq_literal isLit, BitVec.ofNat_toNat, BitVec.setWidth_eq]
  · rw [code]
    have same := step.same
    obtain ⟨P, rfl, room, inserted⟩ | ⟨-, inserted⟩ := txInsert_cases m dec prev W
    · rw [← same, inserted] at below isEntry
      obtain held | next := Nat.lt_or_ge i dec.length
      · rw [txSeq_entry held, ← isEntry, List.getElem?_append_left held]
      · obtain rfl : i = dec.length := by
          rw [List.length_append] at below
          exact Nat.le_antisymm (Nat.le_of_lt_succ below) next
        rw [List.getElem?_concat_length, Option.some_inj] at isEntry
        have first : W.take 1 = P.take 1 := by
          rw [← isEntry, List.take_append_of_le_length (List.length_pos_iff.mpr (step.nonempty P rfl))]
        rw [txSeq_next room, Option.map_some, ← first, isEntry]
    · rw [← same, inserted] at below isEntry
      rw [txSeq_entry below, isEntry]

/-- R233: the reader is one entry behind at most. -/
theorem InStep.length_le_succ (step : InStep m enc W dec prev) : enc.length ≤ dec.length + 1 := by
  rw [← step.same]
  obtain ⟨P, -, -, inserted⟩ | ⟨-, inserted⟩ := txInsert_cases m dec prev W
  · rw [inserted, List.length_append]
    rfl
  · rw [inserted]
    exact Nat.le_succ _

/-- R249: the match's code fits the reader's width. -/
theorem InStep.txCode_lt (step : InStep m enc W dec prev) :
    txCode m enc W < 2 ^ Wd (2 ^ m + 2 + dec.length) := by
  have lag := step.length_le_succ
  have fits := step.fits
  obtain ⟨b, -, isLit, code⟩ | ⟨i, code, below, -⟩ := step.matched.code
  · exact lt_two_pow_Wd (by omega) (by omega)
  · exact lt_two_pow_Wd (by omega) (by omega)

/-- R105: the match's code is a data code. -/
theorem InStep.txCode_ne (step : InStep m enc W dec prev) :
    txCode m enc W ≠ 2 ^ m ∧ txCode m enc W ≠ 2 ^ m + 1 := by
  obtain ⟨b, -, isLit, code⟩ | ⟨i, code, -, -⟩ := step.matched.code
  · omega
  · omega

/-- The bits a code stream is packed into, as txEncode writes them (R146). -/
def streamBits (codes : List (Nat × Nat)) : List Bool := codes.flatMap fun p => codeBits p.1 p.2

theorem streamBits_cons_append (c w : Nat) (codes : List (Nat × Nat)) (pad : List Bool) :
    streamBits ((c, w) :: codes) ++ pad = codeBits c w ++ (streamBits codes ++ pad) :=
  List.append_assoc ..

/-- The reader takes the match's code: the match is output, and the dictionaries are one. -/
theorem InStep.decodes (step : InStep m enc W dec prev) (rest : Decodes m enc (some W) bits (emitted ++ W) indices) :
    Decodes m dec prev (codeBits (txCode m enc W) (Wd (2 ^ m + 2 + dec.length)) ++ bits) emitted indices := by
  obtain ⟨notClear, notEnd⟩ := step.txCode_ne
  refine .data step.txCode_lt notClear notEnd step.txSeq_txCode ?_
  rwa [step.same]

/-- R251: from any point where the two sides are in step, the reader of the codes that remain outputs the match and then
the indices that remain. -/
theorem InStep.decodes_txCodes (small : m ≤ 8) (nr : Bool) (rest : List Byte) (step : InStep m enc W dec prev)
    (legal : ∀ c ∈ rest, c.toNat < 2 ^ m) (pad : List Bool) (whole : emitted ++ W ++ rest = indices) :
    Decodes m dec prev (streamBits (txCodes m nr rest enc W (2 ^ m + 2 + dec.length) prev.isNone) ++ pad)
      emitted indices := by
  induction rest generalizing enc W dec prev emitted with
  | nil =>
    rw [List.append_nil] at whole
    subst whole
    rw [txCodes, txDataSent_eq_size m dec prev W, step.same, streamBits_cons_append, streamBits_cons_append]
    exact step.decodes (.ended (control_lt_two_pow_Wd small (Nat.le_add_right _ _)).2)
  | cons c rest ih =>
    obtain ⟨isLit, legalRest⟩ := List.forall_mem_cons.mp legal
    have wholeRest : emitted ++ W ++ [c] ++ rest = indices := (List.append_cons ..).symm.trans whole
    rw [txCodes, txDataSent_eq_size m dec prev W, step.same]
    split_ifs with isEntry room resets
    · exact ih (step.extend isEntry) legalRest ((List.append_assoc emitted W [c]).symm ▸ wholeRest)
    · rw [streamBits_cons_append, streamBits_cons_append]
      have next := ih (.start small isLit) legalRest wholeRest
      exact step.decodes (.clear (control_lt_two_pow_Wd small (Nat.le_add_right _ _)).1 next)
    · rw [streamBits_cons_append]
      exact step.decodes (ih (step.insert room isLit) legalRest wholeRest)
    · rw [streamBits_cons_append]
      exact step.decodes (ih (step.frozen room isLit) legalRest wholeRest)

/-- R245, R251: the reader of the whole stream outputs the indices. -/
theorem decodes_txStream (small : m ≤ 8) (nr : Bool) (nonempty : indices ≠ [])
    (legal : ∀ c ∈ indices, c.toNat < 2 ^ m) (pad : List Bool) :
    Decodes m [] none (streamBits (txStream m nr indices) ++ pad) [] indices := by
  cases indices with
  | nil => exact absurd rfl nonempty
  | cons c rest =>
    obtain ⟨isLit, legalRest⟩ := List.forall_mem_cons.mp legal
    rw [txStream, streamBits_cons_append]
    exact .clear (control_lt_two_pow_Wd small le_rfl).1
      ((InStep.start small isLit).decodes_txCodes small nr rest legalRest pad rfl)

/-! ### The raster (R284) -/

/-- R284: without interlacing the first `k` indices take the first `k` places. -/
theorem foldl_place_of_not_interlaced {l : Latched} (plain : l.intl = false) {k : Nat} (h : k ≤ indices.length) :
    (List.range k).foldl (fun raster p => raster.set (addrOf l p) (indices.getD p 0))
      (List.replicate indices.length 0) = indices.take k ++ List.replicate (indices.length - k) 0 := by
  induction k with
  | zero => rfl
  | succ k ih =>
    have before := Nat.le_of_succ_le h
    have left : indices.length - k = indices.length - (k + 1) + 1 := by omega
    have addr : addrOf l k = k := by simp [addrOf, plain]
    rw [List.range_succ, List.foldl_append, ih before, List.foldl_cons, List.foldl_nil, addr,
      List.getD_eq_getElem _ _ h, left, List.replicate_succ, List.set_append_right _ _ (List.length_take_le _ _),
      List.length_take_of_le before, Nat.sub_self, List.set_cons_zero, List.append_cons,
      List.take_concat_get' _ _ h]

theorem txPlace_of_not_interlaced {l : Latched} (plain : l.intl = false) (indices : List Byte) :
    txPlace l indices = indices := by
  rw [txPlace, foldl_place_of_not_interlaced plain le_rfl, List.take_length, Nat.sub_self]
  exact List.append_nil _

/-! ### The transaction (R251) -/

/-- What an accepted ENCODE was given, and what it made of it (R314). -/
structure Encoded (l : Latched) (indices framed : List Byte) : Prop where
  mcs    : mcsLegal l.m.toNat = true
  dims   : ¬(l.wid.toInt ≤ 0 ∨ l.hgt.toInt ≤ 0)
  count  : indices.length = l.wid.toNat * l.hgt.toNat
  legal  : ∀ c ∈ indices, c.toNat < 2 ^ l.m.toNat
  framed : framed = txFrame (bytesOfBits (streamBits (txStream l.m.toNat l.nr indices)))

theorem encoded_of_txEncode {caps : Params} {l : Latched} {framed : List Byte}
    (h : txEncode caps l indices = .ok framed) : Encoded l indices framed := by
  unfold txEncode at h
  split_ifs at h with mcs dims count beyond legal
  refine ⟨Bool.eq_true_of_not_eq_false mcs, dims, not_not.mp count, ?_, (TxResult.ok.inj h).symm⟩
  simpa using legal

theorem Encoded.nonempty {l : Latched} {framed : List Byte} (h : Encoded l indices framed) : indices ≠ [] := by
  obtain ⟨wid, hgt⟩ := not_or.mp h.dims
  rw [Int.not_le] at wid hgt
  have widPos : 0 < l.wid.toNat := toNat_eq_of_toInt_pos wid ▸ Int.lt_toNat.mpr wid
  have hgtPos : 0 < l.hgt.toNat := toNat_eq_of_toInt_pos hgt ▸ Int.lt_toNat.mpr hgt
  exact List.length_pos_iff.mp (h.count ▸ Nat.mul_pos widPos hgtPos)

/-- R251: the reader's codes, in a payload of whole bytes. -/
theorem Encoded.codes_decoded {l : Latched} {framed : List Byte} (h : Encoded l indices framed) :
    txDecodeCodes l.m.toNat (8 * (bytesOfBits (streamBits (txStream l.m.toNat l.nr indices))).length + 1)
      (bitsOfBytes (bytesOfBits (streamBits (txStream l.m.toNat l.nr indices)))) [] none [] = .ok indices := by
  obtain ⟨-, small⟩ := of_decide_eq_true h.mcs
  obtain ⟨pad, padded⟩ := prefix_bitsOfBytes_bytesOfBits (streamBits (txStream l.m.toNat l.nr indices))
  rw [← length_bitsOfBytes, ← padded]
  exact decodes_txStream small l.nr h.nonempty h.legal pad _ (Nat.lt_succ_self _)

/-- Settles O59: the framing, the bits, the codes and the raster are each undone. -/
theorem encodeDecodeRoundTrip : Obligations.EncodeDecodeRoundTrip := by
  intro caps caps' l indices framed accepted
  have h := encoded_of_txEncode accepted
  have deframed := txDeframe_txFrame (bytesOfBits (streamBits (txStream l.m.toNat l.nr indices))) [] 0
    (Nat.le_succ _)
  rw [← h.framed, List.nil_append, Nat.zero_add] at deframed
  have mcs : ¬mcsLegal l.m.toNat = false := ne_false_of_eq_true h.mcs
  constructor <;> intro beyond
  all_goals rw [txDecode, if_neg mcs, if_neg h.dims, ← h.count, beyond]
  · simp only [deframed, h.codes_decoded, txPlace_of_not_interlaced, Bool.false_eq_true, if_false, ne_eq, not_true]
  · rfl

end Sys2Proof.Machine

/-! The interlace mapper is the order of arrival of 43_interlace.md: ROWMAP by rows (R281 to R283), ADDR by addresses
(R284, R285). -/

namespace Sys2Proof.Machine

variable {H r y i stride off base : Nat} {passes : List (Nat × Nat)}

/-! ### The rows of a pass (R282) -/

/-- The rows of a pass below `H`, as R283 counts them. -/
def rowsOfPass (H : Nat) (p : Nat × Nat) : List Nat :=
  (List.range (passRows H p.1 p.2)).map fun i => p.2 + p.1 * i

theorem length_rowsOfPass (H : Nat) (p : Nat × Nat) : (rowsOfPass H p).length = passRows H p.1 p.2 := by
  rw [rowsOfPass, List.length_map, List.length_range]

/-- R282: `n_i` counts the rows of the pass that lie below `H`. -/
theorem lt_passRows_iff (positive : 0 < stride) : i < passRows H stride off ↔ off + stride * i < H := by
  rw [passRows]
  split_ifs with rows
  · rw [ceilDiv, Nat.lt_div_iff_mul_lt positive, Nat.mul_comm]
    omega
  · omega

/-- R281: a pass is the rows `off`, `off + stride`, ... below `H` in increasing order. -/
theorem filter_range_eq_rowsOfPass {p : Nat × Nat} (positive : 0 < p.1) :
    ((List.range H).filter fun y => decide (p.2 ≤ y ∧ (y - p.2) % p.1 = 0)) = rowsOfPass H p := by
  have increasing : (rowsOfPass H p).Pairwise (· < ·) :=
    List.pairwise_lt_range.map _ fun _ _ less => Nat.add_lt_add_left (Nat.mul_lt_mul_of_pos_left less positive) _
  refine (List.pairwise_lt_range.filter _).eq_of_mem_iff increasing fun y => ?_
  simp only [rowsOfPass, List.mem_filter, List.mem_range, List.mem_map, decide_eq_true_eq, lt_passRows_iff positive]
  constructor
  · rintro ⟨below, from_off, multiple⟩
    have row : p.2 + p.1 * ((y - p.2) / p.1) = y := by
      rw [Nat.mul_div_cancel' (Nat.dvd_of_mod_eq_zero multiple), Nat.add_sub_cancel' from_off]
    exact ⟨(y - p.2) / p.1, row.symm ▸ below, row⟩
  · rintro ⟨i, below, rfl⟩
    exact ⟨below, Nat.le_add_right .., by rw [Nat.add_sub_cancel_left, Nat.mul_mod_right]⟩

/-! ### The order of arrival (R281) -/

theorem passes_strides : ∀ p ∈ Config.passes, 0 < p.1 := by decide

theorem passOrder_eq_flatMap (H : Nat) : passOrder H = Config.passes.flatMap (rowsOfPass H) :=
  List.flatMap_congr fun p hp => filter_range_eq_rowsOfPass (passes_strides p hp)

/-- R282: the order of arrival has as many rows as the frame. -/
theorem length_passOrder (H : Nat) : (passOrder H).length = H := by
  rw [passOrder_eq_flatMap, List.length_flatMap]
  simp only [length_rowsOfPass]
  exact sum_passRows H

/-- No row arrives twice. -/
theorem nodup_passOrder (H : Nat) : (passOrder H).Nodup := by
  refine List.nodup_flatMap.mpr ⟨fun p _ => List.nodup_range.filter _, ?_⟩
  refine passes_pairwise_apart.imp_of_mem fun {p q} hp hq apart => ?_
  rw [Function.onFun, filter_range_eq_rowsOfPass (passes_strides p hp),
    filter_range_eq_rowsOfPass (passes_strides q hq), List.disjoint_left]
  intro y inP inQ
  obtain ⟨j, -, rowP⟩ := List.mem_map.mp inP
  obtain ⟨k, -, rowQ⟩ := List.mem_map.mp inQ
  exact apart j k (rowP.trans rowQ.symm)

theorem lt_of_mem_passOrder (h : y ∈ passOrder H) : y < H := by
  obtain ⟨p, -, row⟩ := List.mem_flatMap.mp h
  exact List.mem_range.mp (List.mem_filter.mp row).1

/-- R285: as many rows as the frame has, all of them its own and none twice. -/
theorem passOrder_perm_range (H : Nat) : (passOrder H).Perm (List.range H) := by
  have own := (nodup_passOrder H).subperm fun y hy => List.mem_range.mpr (lt_of_mem_passOrder hy)
  exact own.perm_of_length_le (by rw [length_passOrder, List.length_range])

/-! ### ROWMAP (R283) -/

/-- The loop of R283 looks the physical row up in the passes left, put one after another. -/
theorem rowmapGo_eq_getElem? (within : base ≤ r) :
    rowmapGo H r passes base = (passes.flatMap (rowsOfPass H))[r - base]? := by
  induction passes generalizing base with
  | nil => rfl
  | cons p rest ih =>
    rw [rowmapGo, List.flatMap_cons, List.getElem?_append, length_rowsOfPass]
    by_cases here : r < base + passRows H p.1 p.2
    · have inPass : r - base < passRows H p.1 p.2 := by omega
      rw [if_pos here, if_pos inPass, rowsOfPass, List.getElem?_map, List.getElem?_range inPass, Option.map_some]
    · have notInPass : ¬ r - base < passRows H p.1 p.2 := by omega
      rw [if_neg here, if_neg notInPass, ih (Nat.le_of_not_lt here), Nat.sub_add_eq]

/-- R283: below the height ROWMAP answers the row that arrives `r`-th. -/
theorem passOrder_getElem?_rowmap {hgt : Word} (below : r < hgt.toInt.toNat) :
    (passOrder hgt.toInt.toNat)[r]? = some (rowmap hgt r) := by
  rw [passOrder_eq_flatMap, ← rowmapGo_rowmap below, rowmapGo_eq_getElem? r.zero_le, Nat.sub_zero]

theorem rowmap_lt_height {hgt : Word} (below : r < hgt.toInt.toNat) : rowmap hgt r < hgt.toInt.toNat :=
  lt_of_mem_passOrder (List.mem_of_getElem? (passOrder_getElem?_rowmap below))

/-- Settles O31: ROWMAP looks the row up in the order of arrival, which holds every row below the height once. -/
theorem rowmapIsPassOrder : Obligations.RowmapIsPassOrder := by
  refine fun r s => ⟨s.setRet (rowmap s.lat.hgt r), rfl, rfl, fun below => ?_⟩
  rw [← toNat_eq_of_toInt_pos (r.cast_nonneg.trans_lt below)]
  exact ⟨passOrder_getElem?_rowmap (Int.lt_toNat.mpr below), passOrder_perm_range _⟩

/-! ### ADDR (R284, R285) -/

theorem addrOf_of_not_interlaced {l : Latched} (plain : l.intl = false) (p : Nat) : addrOf l p = p := by
  simp [addrOf, plain]

theorem addrOf_of_interlaced {l : Latched} (interlaced : l.intl = true) (positive : 0 < l.wid.toInt) (p : Nat) :
    addrOf l p = rowmap l.hgt (p / l.wid.toNat) * l.wid.toNat + p % l.wid.toNat := by
  rw [addrOf, if_pos interlaced, if_pos positive]

/-- R285: a stream position below `N` goes to an address below `N`. -/
theorem addrOf_lt {s : State} (place : PlaceOk s) {p : Nat} (hp : p < s.lat.n) : addrOf s.lat p < s.lat.n := by
  cases interlaced : s.lat.intl with
  | false => rwa [addrOf_of_not_interlaced interlaced]
  | true =>
    have wid : 0 < s.lat.wid.toNat := toNat_eq_of_toInt_pos place.wid ▸ Int.lt_toNat.mpr place.wid
    have row := rowmap_lt_height (row_lt_height place hp)
    rw [toNat_eq_of_toInt_pos place.hgt] at row
    calc addrOf s.lat p
      _ = rowmap s.lat.hgt (p / s.lat.wid.toNat) * s.lat.wid.toNat + p % s.lat.wid.toNat :=
        addrOf_of_interlaced interlaced place.wid p
      _ < (rowmap s.lat.hgt (p / s.lat.wid.toNat) + 1) * s.lat.wid.toNat := by
        rw [Nat.succ_mul]
        exact Nat.add_lt_add_left (Nat.mod_lt p wid) _
      _ ≤ s.lat.hgt.toNat * s.lat.wid.toNat := Nat.mul_le_mul_right _ row
      _ = s.lat.n := by rw [place.n, Nat.mul_comm]

/-- Settles O32: ADDR remaps the row of a position and keeps its column, and is one-to-one below `N`. -/
theorem addrIsBijection : Obligations.AddrIsBijection := by
  refine fun p s => ⟨s.setRet (addrOf s.lat p), rfl, rfl, fun plain => addrOf_of_not_interlaced plain p, ?_⟩
  refine fun place hp => ⟨addrOf_lt place hp, fun interlaced => ?_, ?_⟩
  · rw [← toNat_eq_of_toInt_pos place.hgt]
    exact ⟨_, passOrder_getElem?_rowmap (row_lt_height place hp), addrOf_of_interlaced interlaced place.wid p⟩
  · rintro q _ hq ⟨⟩ same
    exact addrOf_injOn place hq hp same

end Sys2Proof.Machine

/-! A CMD write with START = 1 while BUSY = 1 (R301): both operations and every reserved encoding look at BUSY first. -/

namespace Sys2Proof.Machine

variable {s : State}

/-- R301: BUSY is looked at before the registers START needs. -/
theorem start_of_busy (op : Op) (busy : s.busy = true) : start op s = .refused .startWhileBusy :=
  if_pos busy

/-- Settles O17: a value with bit 7 set is one of the two start values or a reserved encoding. -/
theorem startWhileBusyRefused : Obligations.StartWhileBusyRefused := by
  intro s v busy hstart
  by_cases starts : v = 0x81#8 ∨ v = 0x82#8
  · obtain ⟨op, runs⟩ := exec_decodeCmd_start starts
    rw [runs, start_of_busy op busy]
  · obtain ⟨hdec, henc⟩ := not_or.mp starts
    rw [decodeCmd_of_reserved hstart hdec henc, exec_cmdReserved, if_pos busy]

end Sys2Proof.Machine

/-! Encodings read both ways (30_encoding.md): codes at the reader's width (R100 to R105), CMD bytes (R110), framing
words (R108), and the classes the encoder emits (R107). -/

namespace Sys2Proof

open Machine

variable {x : Ctx} {c : Code} {k : CodeClass} {bits : List Bool}

/-! ### Codes (R100 to R102) -/

/-- R101: a code that fits its width is spelled by its bits. -/
theorem codeOfBits_codeBits {w : Nat} (fits : c.toNat < 2 ^ w) : codeOfBits (codeBits c.toNat w) = c := by
  have summed := sumBits_codeBits_append fits []
  rw [List.append_nil] at summed
  rw [codeOfBits, length_codeBits, summed, BitVec.ofNat_toNat, BitVec.setWidth_eq]

/-- R101: and the bits of at most 12 payload positions are those of the code they spell. -/
theorem codeBits_codeOfBits (short : bits.length ≤ 12) : codeBits (codeOfBits bits).toNat bits.length = bits := by
  refine List.ext_getElem (length_codeBits _ _) fun i hi hi' => ?_
  have value : (codeOfBits bits).toNat = sumBits (fun i => (bits.getD i false).toNat) bits.length :=
    Nat.mod_eq_of_lt ((sumBits_lt _ _).trans_le (Nat.pow_le_pow_right Nat.two_pos short))
  have bit := testBit_sumBits (fun i => bits.getD i false) hi'
  rw [List.getD_eq_getElem _ _ hi', ← value] at bit
  simp only [codeBits, List.getElem_map, List.getElem_range, bit]

/-- What a class is encoded by is a code that meets its condition (R105). -/
theorem encode_instr_of_condition (h : k.Condition x c) : encode x k.instr = encodeCode x c.toNat := by
  cases k with
  | clear => exact congrArg (encodeCode x) (Eq.symm h)
  | endCode => exact congrArg (encodeCode x) (Eq.symm h)
  | lit b => exact congrArg (encodeCode x) h.2
  | dict k => exact congrArg (encodeCode x ·.toNat) h.1
  | defer => exact congrArg (encodeCode x) h.1.symm
  | badcode k => exact congrArg (encodeCode x ·.toNat) h.1

/-- A code of the reader's width is read as the class it is in. -/
theorem decode_encodeCode (fits : c.toNat < 2 ^ Wd x.d) :
    decode x (encodeCode x c.toNat) = .ok (classify x c).instr := by
  rw [encodeCode, decode, decodeCode, if_pos (length_codeBits _ _), codeOfBits_codeBits fits]

theorem decode_encode_instr (hx : x.ok = true) (h : k.Condition x c) (fits : c.toNat < 2 ^ Wd x.d) :
    decode x (encode x k.instr) = .ok k.instr := by
  rw [encode_instr_of_condition h, decode_encodeCode fits, classify_eq_of_condition hx h]

/-- CLEAR and END are codes, and every width a dictionary has spells them. -/
theorem exists_control_code (hx : x.ok = true) : (∃ c : Code, c.toNat = 2 ^ x.m ∧ c.toNat < 2 ^ Wd x.d) ∧
    ∃ c : Code, c.toNat = 2 ^ x.m + 1 ∧ c.toNat < 2 ^ Wd x.d := by
  obtain ⟨literals, sized⟩ := Ctx.bounds_of_ok hx
  obtain ⟨-, small, -⟩ := of_decide_eq_true hx
  obtain ⟨clearFits, endFits⟩ := control_lt_two_pow_Wd small sized
  have value {v : Nat} (hv : v < 4096) : (BitVec.ofNat 12 v).toNat = v := Nat.mod_eq_of_lt hv
  have clear := value (v := 2 ^ x.m) (by omega)
  have ended := value (v := 2 ^ x.m + 1) (by omega)
  exact ⟨⟨_, clear, clear.trans_lt clearFits⟩, ⟨_, ended, ended.trans_lt endFits⟩⟩

theorem decode_encode_clear (hx : x.ok = true) : decode x (encode x .clear) = .ok .clear := by
  obtain ⟨⟨c, isClear, fits⟩, -⟩ := exists_control_code hx
  exact decode_encode_instr (k := .clear) hx isClear fits

theorem decode_encode_endCode (hx : x.ok = true) : decode x (encode x .endCode) = .ok .endCode := by
  obtain ⟨-, c, isEnd, fits⟩ := exists_control_code hx
  exact decode_encode_instr (k := .endCode) hx isEnd fits

theorem decode_encode_lit (hx : x.ok = true) {b : Byte} (isLit : b.toNat < 2 ^ x.m) :
    decode x (encode x (.lit b)) = .ok (.lit b) := by
  obtain ⟨literals, sized⟩ := Ctx.bounds_of_ok hx
  have value : (b.setWidth 12).toNat = b.toNat := BitVec.toNat_setWidth_of_le (by decide)
  refine decode_encode_instr (k := .lit b) (c := b.setWidth 12) hx ⟨value.trans_lt isLit, value.symm⟩ ?_
  rw [value]
  exact lt_two_pow_Wd (by omega) (by omega)

theorem decode_encode_dict (hx : x.ok = true) (first : 2 ^ x.m + 2 ≤ c.toNat) (below : c.toNat < x.d) :
    decode x (encode x (.dict c)) = .ok (.dict c) :=
  decode_encode_instr (k := .dict c) hx ⟨rfl, first, below⟩ (lt_two_pow_Wd below.le c.isLt)

/-- R105: below the cap the next code to be assigned is a code of the reader's width. -/
theorem decode_encode_defer (hx : x.ok = true) (room : x.d < 4096) (valid : x.prevValid = true) :
    decode x (encode x .defer) = .ok .defer := by
  have value : (BitVec.ofNat 12 x.d).toNat = x.d := Nat.mod_eq_of_lt room
  exact decode_encode_instr (k := .defer) hx ⟨value, room, valid⟩ (value.trans_lt (lt_two_pow_Wd le_rfl room))

/-! ### CMD bytes (R110) -/

theorem decodeCmd_cmdNop (low : BitVec 7) : decodeCmd (0#1 ++ low) = .cmdNop low := by
  have startBit : (0#1 ++ low).getLsbD 7 = false := by rw [BitVec.getLsbD_append]; rfl
  rw [decodeCmd, if_pos startBit, BitVec.extractLsb'_append_eq_right]

/-- R110: a reserved low half is not one of the two start values'. -/
theorem decodeCmd_cmdReserved {low : BitVec 7} (reserved : reservedLow low = true) :
    decodeCmd (1#1 ++ low) = .cmdReserved low := by
  revert low
  decide

/-- R110: a CMD byte is the one its instruction encodes to. -/
theorem encode_decodeCmd (x : Ctx) (b : Byte) : encode x (decodeCmd b) = .cmd b := by
  unfold decodeCmd
  split_ifs with startBit isDecode isEncode
  · revert b
    simp only [encode, Encoding.cmd.injEq]
    decide
  · rw [isDecode]
    rfl
  · rw [isEncode]
    rfl
  · revert b
    simp only [encode, Encoding.cmd.injEq]
    decide

/-! ### Framing words (R108) -/

theorem decodeFrame_subblock {payload : List Byte} (nonempty : 1 ≤ payload.length) (short : payload.length ≤ 255) :
    decodeFrame (BitVec.ofNat 8 payload.length :: payload) = .ok (.subblock payload) := by
  have length : (BitVec.ofNat 8 payload.length).toNat = payload.length := Nat.mod_eq_of_lt (Nat.lt_succ_of_le short)
  have notTerm : BitVec.ofNat 8 payload.length ≠ 0#8 := fun h => by
    rw [h] at length
    exact absurd length.symm (Nat.ne_of_gt nonempty)
  rw [decodeFrame, if_neg notTerm, length, if_neg (Nat.lt_irrefl _), List.take_length]

/-! ### The obligations -/

/-- Settles O8: a code class is read back by its condition, a CMD byte by its START bit, a sub-block by its length. -/
theorem decodeOfEncode : Obligations.DecodeOfEncode := by
  rintro x i hx hwf hin (rfl | rfl | ⟨low, rfl⟩ | ⟨low, rfl⟩ | rfl | rfl | ⟨b, rfl⟩ | ⟨c, rfl⟩ | rfl |
    ⟨c, rfl, fits⟩ | ⟨payload, rfl⟩ | rfl)
  · rfl
  · rfl
  · exact congrArg Except.ok (decodeCmd_cmdNop low)
  · exact congrArg Except.ok (decodeCmd_cmdReserved hwf)
  · exact decode_encode_clear hx
  · exact decode_encode_endCode hx
  · exact decode_encode_lit hx (of_decide_eq_true hin)
  · obtain ⟨first, below⟩ := of_decide_eq_true hin
    exact decode_encode_dict hx first below
  · obtain ⟨room, valid⟩ := Bool.and_eq_true_iff.mp hin
    exact decode_encode_defer hx (of_decide_eq_true room) valid
  · refine decode_encode_instr (k := .badcode c) hx ⟨rfl, ?_⟩ fits
    simpa [Instr.wfIn, or_comm] using hin
  · obtain ⟨nonempty, short⟩ := of_decide_eq_true hwf
    exact congrArg (·.map FrameWord.instr) (decodeFrame_subblock nonempty short)
  · rfl

/-- Settles O9: a CMD byte by its decoding, a code field because its class's condition names the code. -/
theorem encodeOfDecode : Obligations.EncodeOfDecode := by
  refine fun x i hx => ⟨fun b decoded => ?cmd, fun bits decoded => ?code⟩
  case cmd =>
    obtain rfl := Except.ok.inj decoded
    exact encode_decodeCmd x b
  case code =>
    rw [decode, decodeCode] at decoded
    split_ifs at decoded with width
    obtain rfl := Except.ok.inj decoded
    rw [encode_instr_of_condition (classify_condition hx), encodeCode, ← width,
      codeBits_codeOfBits (width.trans_le (Wd_le_twelve _))]

/-- Settles O10: E_CLEAR_START, E_CLEAR_FULL and E_END spell CLEAR and END; a data code is below `2^m`, below `D` or
`D`. -/
theorem emittedClassesReadBack : Obligations.EmittedClassesReadBack := by
  refine fun x hx => ⟨decode_encode_clear hx, decode_encode_clear hx, decode_encode_endCode hx, fun c hin atEnd => ?_⟩
  obtain ⟨known, notClear, notEnd⟩ := of_decide_eq_true hin
  have decoded : decode x (encode x (.eData c)) = _ := decode_encodeCode (lt_two_pow_Wd known c.isLt)
  simp only [decoded]
  have class_eq {k : CodeClass} (h : k.Condition x c) := congrArg (Except.ok (ε := Reject) ·.instr)
    (classify_eq_of_condition hx h)
  obtain isLit | notLit := Nat.lt_or_ge c.toNat (2 ^ x.m)
  · exact .inl (class_eq (k := .lit _) ⟨isLit, setWidth_toNat_of_literal hx isLit⟩)
  · obtain below | isNext := known.lt_or_eq
    · exact .inr (.inl (class_eq (k := .dict c) ⟨rfl, by omega, below⟩))
    · exact .inr (.inr (class_eq (k := .defer) ⟨isNext, atEnd isNext⟩))

end Sys2Proof

/-! STATUS (R35, R331), START (R300), ABORT (R334) and RESET (R370), and the run's invariants in the phases they do not
speak of. -/

namespace Sys2Proof.Machine

variable {s : State}

/-! ### STATUS (R35) -/

/-- R35: each field of STATUS reads back, and the reserved bits are 0. -/
theorem statusWord_fields (busy done err : Bool) (kind : BitVec 2) (detail : BitVec 4) :
    statusBusy (statusWord busy done err kind detail) = busy ∧
    statusDone (statusWord busy done err kind detail) = done ∧
    statusErr (statusWord busy done err kind detail) = err ∧
    statusKind (statusWord busy done err kind detail) = kind ∧
    statusDetail (statusWord busy done err kind detail) = detail ∧
    (statusWord busy done err kind detail).extractLsb' 5 3 = 0 ∧
    (statusWord busy done err kind detail).extractLsb' 12 4 = 0 := by
  revert busy done err kind detail
  decide

@[simp] theorem statusBusy_running : statusBusy statusRunning = true := (statusWord_fields ..).1

@[simp] theorem statusBusy_success : statusBusy statusSuccess = false := (statusWord_fields ..).1

@[simp] theorem statusBusy_aborted (x : Cause) : statusBusy (statusAborted x) = false := (statusWord_fields ..).1

/-- Settles O4: the fields for every STATUS word, and the twelve words of 95_test_vectors.md by evaluation. -/
theorem statusWordFields : Obligations.StatusWordFields :=
  ⟨statusWord_fields, by decide⟩

/-- Settles O5: each sample word is evaluated. -/
theorem sampleWordsDecode : Obligations.SampleWordsDecode := by
  unfold Obligations.SampleWordsDecode
  decide

/-! ### Commands (R300, R301, R110) -/

/-- Settles O7: CMD_NOP answers its own state, and BUSY names CMD_RESERVED's refusal. -/
theorem commandsThatStartNothing : Obligations.CommandsThatStartNothing := by
  refine fun low s => ⟨exec_cmdNop low s, fun busy => ?_, fun idle => ?_⟩
  · rw [exec_cmdReserved, if_pos busy]
  · rw [exec_cmdReserved, if_neg (Bool.eq_false_iff.mp idle)]

/-- R57: a START with a register unwritten is refused. -/
theorem start_of_unwritten (op : Op) (idle : s.busy = false) (unwritten : regsWritten s.regs = false) :
    start op s = .refused .registerUnwritten := by
  simp [start, idle, unwritten]

/-- R42: the latched constants of a legal `m` fit their registers. -/
theorem latchOk_of_latched (small : s.lat.m.toNat ≤ 8) (latched : s.lat.clear = narrow 9 (2 ^ s.lat.m.toNat) ∧
    s.lat.endCode = narrow 9 (2 ^ s.lat.m.toNat + 1) ∧ s.lat.firstFree = narrow 9 (2 ^ s.lat.m.toNat + 2)) :
    LatchOk s := by
  obtain ⟨clear, ended, firstFree⟩ := latched
  have literals := Nat.pow_le_pow_right Nat.two_pos small
  refine ⟨small, ?_, ?_, ?_⟩
  · rw [clear, narrow_toNat (by omega)]
  · rw [ended, narrow_toNat (by omega)]
  · rw [firstFree, narrow_toNat (by omega)]

theorem started_latched (op : Op) (s : State) :
    (started op s).lat.clear = narrow 9 (2 ^ (started op s).lat.m.toNat) ∧
    (started op s).lat.endCode = narrow 9 (2 ^ (started op s).lat.m.toNat + 1) ∧
    (started op s).lat.firstFree = narrow 9 (2 ^ (started op s).lat.m.toNat + 2) :=
  ⟨rfl, rfl, rfl⟩

/-- Settles O16: START refuses an unwritten register, and otherwise answers the latched state. -/
theorem startLatchesParameters : Obligations.StartLatchesParameters := by
  intro s idle i op hi
  have runs : exec i s = start op s := by
    obtain ⟨rfl, rfl⟩ | ⟨rfl, rfl⟩ := hi <;> rfl
  rw [runs]
  refine ⟨fun unwritten => start_of_unwritten op idle ?_, fun cfg width height inLen => ?_⟩
  · obtain h | h | h | h := unwritten <;> simp [regsWritten, h]
  · have written : regsWritten s.regs = true := by simp [regsWritten, cfg, width, height, inLen]
    refine ⟨started op s, start_of_ready op idle written, rfl, ?_, rfl, ?_,
      fun small => latchOk_of_latched small (started_latched op s), rfl, rfl, rfl, rfl, rfl, rfl, rfl⟩
    · have running : statusRunning = 0x0001#16 := by decide
      rw [← running]
      rfl
    · show (s.regs.cfg.extractLsb' 0 4).toNat = _
      rw [BitVec.extractLsb'_toNat, Nat.shiftRight_zero]

/-! ### ABORT (R334) and RESET (R370) -/

/-- Settles O3: STATUS is a word of its fields, and ABORT lists everything else it touches. -/
theorem abortReportsCause : Obligations.AbortReportsCause := by
  intro x s
  obtain ⟨busy, done, err, kind, detail, -⟩ := statusWord_fields false true true (causeKind x) (causeDetail x)
  exact ⟨abortState x s, rfl, busy, done, err, kind, detail, rfl, rfl, rfl, rfl, rfl, rfl, rfl, rfl⟩

/-- A step consumes the host's next access and makes it (log 7). -/
theorem step_of_host {x : HostAccess} {rest : List HostAccess} (h : s.host = x :: rest) :
    step s = hostAccess x (s.setHost rest) := by
  rw [step, machineStep, h]

/-- Settles O2: RESET reads nothing of the state but what is not the block's. -/
theorem resetFromAnyState : Obligations.ResetFromAnyState := fun s =>
  ⟨State.resetWith s.params s.host s.rdata s.diag s.free, rfl, rfl, rfl, rfl, rfl, rfl, rfl, rfl, rfl, rfl, rfl, rfl,
    rfl, rfl, rfl, rfl, rfl, rfl, rfl, rfl, fun _ => step_of_host⟩

/-! ### The invariants where they say nothing -/

theorem RunInv.of_idle (idle : s.phase = .idle) : RunInv s where
  latched h := absurd idle h
  checked h := absurd idle h
  capacity h := absurd idle h
  decoding := by simp [idle]
  encoding := by simp [idle]

/-- At CHECK nothing but the latch is established yet. -/
theorem RunInv.of_check (check : s.phase = .check) (latched : s.lat.clear = narrow 9 (2 ^ s.lat.m.toNat) ∧
    s.lat.endCode = narrow 9 (2 ^ s.lat.m.toNat + 1) ∧ s.lat.firstFree = narrow 9 (2 ^ s.lat.m.toNat + 2)) :
    RunInv s where
  latched _ := latched
  checked _ h := absurd check h
  capacity _ h := absurd check h
  decoding := by simp [check]
  encoding := by simp [check]

theorem DecInv.of_not_lzwdec (h : s.phase ≠ .lzwdec) : DecInv s where
  dict h' := absurd h' h
  prev h' := absurd h' h
  reading h' := absurd h' h
  cursor h' := absurd h' h

theorem EncInv.of_not_encoding (encode : s.phase ≠ .encode) (flush : s.phase ≠ .flush) : EncInv s where
  dict h := absurd h encode
  reset h := absurd h encode
  first h := absurd h encode
  later h := absurd h encode
  started h := absurd h encode
  unique h := absurd h encode
  cur h := absurd h encode
  ipos h := absurd h encode
  indices h := absurd h encode
  clean h := absurd h (not_or.mpr ⟨encode, flush⟩)
  bits h := absurd h encode
  total h := absurd h flush

/-- R55, R370: what the host can rely on after a RESET. -/
theorem HostInv.resetWith (params : Params) (host : List HostAccess) (rdata : Word) (diag : Diag) (seed : Nat) :
    HostInv (State.resetWith params host rdata diag seed) where
  status := .inl rfl
  busy := iff_of_false (show ¬statusBusy 0 = true by decide) (not_not.mpr rfl)
  results _ := ⟨rfl, rfl⟩
  cfg := show (0#8 &&& 0xC0#8) = 0 by decide
  inp := Memory.unspecified_wf _
  out := Memory.unspecified_wf _
  pay := Memory.unspecified_wf _
  stk := Memory.unspecified_wf _
  pre := Memory.unspecified_wf _
  suf := Memory.unspecified_wf _

theorem OutInv.of_unspecified {seed : Nat} (h : s.out = Memory.unspecified seed) : OutInv s := by
  intro p hp
  rw [h] at hp
  exact absurd hp List.not_mem_nil

/-- Settles O1: phase IDLE asks nothing of the datapath, and nothing is listed in OUT. -/
theorem powerOnState : Obligations.PowerOnState :=
  ⟨rfl, rfl, rfl, rfl, rfl, rfl, rfl, rfl, rfl, rfl, rfl, rfl, rfl, rfl, rfl, HostInv.resetWith .., RunInv.of_idle rfl,
    DecInv.of_not_lzwdec (by decide), EncInv.of_not_encoding (by decide) (by decide), OutInv.of_unspecified rfl⟩

end Sys2Proof.Machine

/-! The step and the host port: which instruction a step runs (R41, log 7), and what the host's accesses do (R32 to
R37, R70, R381). -/

namespace Sys2Proof.Machine

variable {s u : State}

/-! ### The step -/

theorem decodeTableWord_eq_some {w : Nat} {i : Instr} (h : decodeTableWord 8 w = some i) :
    w < 256 ∧ decodeCmd (BitVec.ofNat 8 w) = i := by
  unfold decodeTableWord at h
  split_ifs at h with hw
  exact ⟨hw.2, Option.some.inj h⟩

/-- Settles O13: the first clause, read at a CMD write and at the write that `withFetchWord` puts in front. -/
theorem stepRunsHostCommand : Obligations.StepRunsHostCommand := by
  refine ⟨fun _ _ _ => step_of_host, fun _ _ _ => step_of_host, fun s w i word => ?_⟩
  obtain ⟨byte, decoded⟩ := decodeTableWord_eq_some word
  calc step (s.withFetchWord 8 w)
      = exec (decodeCmd (BitVec.ofNat 8 (w % 256))) (s.setRegs (bootRegs s.regs)) := rfl
    _ = exec i (s.setRegs (bootRegs s.regs)) := by rw [Nat.mod_eq_of_lt byte, decoded]

/-- The block takes its turn, from `u`, in the step from `s`: no access is pending, or the host makes none (log 7). -/
def TakesTurn (s u : State) : Prop :=
  (s.host = [] ∧ u = writeDiag s) ∨ ∃ rest, s.host = .idle :: rest ∧ u = writeDiag (s.setHost rest)

theorem TakesTurn.step_eq (turn : TakesTurn s u) : step s = blockStep u := by
  obtain ⟨none, rfl⟩ | ⟨rest, idle, rfl⟩ := turn
  · rw [step, machineStep, none]
    rfl
  · rw [step_of_host idle]
    rfl

theorem blockStep_of_deframe (h : u.phase = .deframe) : blockStep u = deframePhase u := by rw [blockStep, h]

theorem blockStep_of_lzwdec (h : u.phase = .lzwdec) (running : u.dec.dstate ≠ .done) :
    blockStep u = exec .decstep u := by
  rw [blockStep, h]
  exact if_neg running

theorem blockStep_of_decoded (h : u.phase = .lzwdec) (done : u.dec.dstate = .done) :
    blockStep u = .next (u.setPhase .finish) := by
  rw [blockStep, h]
  exact if_pos done

theorem blockStep_of_index (h : u.phase = .encode) (left : u.enc.ipos.toNat < u.lat.n) :
    blockStep u = exec .encStep u := by
  rw [blockStep, h]
  exact if_pos left

@[simp] theorem finalMatch_lat (s : State) : (finalMatch s).lat = s.lat := by
  rw [finalMatch, sendData, emitCode_frame]
  rfl

theorem blockStep_of_encoded (h : u.phase = .encode) (ended : u.lat.n ≤ u.enc.ipos.toNat) :
    blockStep u = .next ((emitCode (u.lat.endCode.setWidth 12) (finalMatch u)).setPhase .flush) := by
  have unfolded : blockStep u = andThen (exec .encStep u) fun s1 =>
      andThen (exec .eEnd s1) fun s2 => .next (s2.setPhase .flush) := by
    rw [blockStep, h]
    exact if_neg ended.not_gt
  rw [unfolded, exec_encStep_of_ended ended, ← finalMatch_lat u]
  rfl

theorem blockStep_of_flush (h : u.phase = .flush) : blockStep u = .next ((flushOut u).setPhase .finish) := by
  rw [blockStep, h]
  rfl

theorem blockStep_of_finish (h : u.phase = .finish) : blockStep u = finishPhase u := by rw [blockStep, h]

/-- Settles O14: a turn is `blockStep`, and `blockStep` goes by the phase. -/
theorem stepRunsPhaseInstruction : Obligations.StepRunsPhaseInstruction := by
  intro s u turn
  have turn : TakesTurn s u := turn
  rw [turn.step_eq]
  refine ⟨fun h => ?idle, fun _ => rfl, blockStep_of_deframe, blockStep_of_lzwdec, blockStep_of_decoded,
    blockStep_of_index, fun h ended => ?encoded, blockStep_of_flush, fun h op => ?decode, fun h op => ?encode⟩
  case idle => rw [blockStep, h]
  case encoded =>
    rw [blockStep_of_encoded h ended, ← finalMatch_lat u]
    rfl
  case decode => rw [blockStep_of_finish h, finishPhase, op]
  case encode => rw [blockStep_of_finish h, finishPhase, op]

/-! ### The host port -/

/-- R32: the reserved bits ignore the write. -/
theorem cfgStored_toNat (v : Byte) : (cfgStored v).toNat = v.toNat % 64 := by
  rw [cfgStored, BitVec.toNat_and]
  exact Nat.and_two_pow_sub_one_eq_mod v.toNat 6

/-- Settles O21: a write marks its register written, so the read-back is the value. -/
theorem hostRegisterWrites : Obligations.HostRegisterWrites := by
  refine fun s => ⟨fun v => ⟨_, _, rfl, cfgStored_toNat v, rfl, rfl, ?_, rfl⟩, fun v => ⟨_, rfl, rfl, rfl⟩,
    fun v => ⟨_, rfl, rfl, rfl⟩, fun v => ⟨_, rfl, rfl, rfl⟩, fun v => ⟨rfl, rfl, rfl⟩⟩
  exact (BitVec.toNat_setWidth_of_le (by decide)).trans (cfgStored_toNat v)

theorem readWritable_of_unwritten {written : Bool} (h : written = false) (w : Nat) (v : Word) (s : State) :
    readWritable written w v s = readFree w s := by
  rw [h]
  rfl

/-- A free value of `w` bits is below `2^w` (log 1). -/
theorem readFree_rdata_lt {w : Nat} (hw : w ≤ 32) (s : State) : (readFree w s).rdata.toNat < 2 ^ w :=
  (BitVec.toNat_setWidth_of_le hw).trans_lt (BitVec.isLt _)

/-- R82: a read of OUT in an idle block, below OUT_CAP. -/
theorem hostReadOut_of_idle {a : Nat} (idle : s.busy = false) (inOut : a < s.params.outCap) : hostReadOut a s =
    if a < s.regs.outLen.toNat then .next (s.setRdata ((s.out.read a).setWidth 32)) else .next (readFree 8 s) := by
  rw [hostReadOut, if_neg (Bool.eq_false_iff.mp idle), if_neg inOut.not_ge]

/-- Settles O22: a register read is the register, or a free value of its width while unwritten; OUT by OUT_LEN. -/
theorem hostReadsResults : Obligations.HostReadsResults := by
  refine fun s => ⟨⟨_, rfl, BitVec.toNat_setWidth_of_le (by decide), rfl⟩, rfl, rfl, fun h => ?cfg, fun h => ?width,
    fun h => ?height, fun h => ?inLen, fun a idle inOut => ?out⟩
  case cfg =>
    exact ⟨readFree 6 s, congrArg _ (readWritable_of_unwritten h ..), readFree_rdata_lt (by decide) s, rfl⟩
  case width => exact ⟨readFree 32 s, congrArg _ (readWritable_of_unwritten h ..), rfl⟩
  case height => exact ⟨readFree 32 s, congrArg _ (readWritable_of_unwritten h ..), rfl⟩
  case inLen => exact ⟨readFree 32 s, congrArg _ (readWritable_of_unwritten h ..), rfl⟩
  case out =>
    refine ⟨fun result => ⟨_, (hostReadOut_of_idle idle inOut).trans (if_pos result), ?_, rfl⟩, fun beyond => ?_⟩
    · exact BitVec.toNat_setWidth_of_le (by decide)
    · exact ⟨_, (hostReadOut_of_idle idle inOut).trans (if_neg beyond.not_gt), readFree_rdata_lt (by decide) s, rfl⟩

/-- R381 (a): IN is open to the host but for the running transaction's input. -/
theorem hostWriteIn_of_open {a : Nat} (free : s.busy = false ∨ s.lat.ilen.toNat ≤ a) (b : Byte) :
    hostWriteIn a b s = if s.params.inCap ≤ a then .fault .noSuchInAddress else .next (s.setInp (s.inp.write a b)) := by
  refine if_neg fun ⟨busy, input⟩ => ?_
  obtain idle | beyond := free
  · exact Bool.eq_false_iff.mp idle busy
  · exact input.not_ge beyond

/-- Settles O23: the two guards of a write to IN, and the refusals in their order. -/
theorem hostBufferDuties : Obligations.HostBufferDuties := by
  refine fun s a b => ⟨fun busy input => if_pos ⟨busy, input⟩, fun busy => if_pos busy, rfl, rfl,
    fun free inIn => ?taken, fun free beyond => ?noSuch, fun idle beyond => ?noSuchOut⟩
  case taken =>
    exact ⟨_, (hostWriteIn_of_open free b).trans (if_neg inIn.not_ge), s.inp.read_write_same a b,
      fun _ other => s.inp.read_write_other other b, rfl⟩
  case noSuch => exact (hostWriteIn_of_open free b).trans (if_pos beyond)
  case noSuchOut => exact (if_neg (Bool.eq_false_iff.mp idle)).trans (if_pos beyond)

/-! ### Register steps (R141, R180 to R182, R232 to R238) -/

/-- Settles O24: PACK_INIT is written as that update. -/
theorem packInitEffect : Obligations.PackInitEffect := fun _ => rfl

/-- Settles O33: `D` has the bits to take FIRST_FREE. -/
theorem decoderRegisterSteps : Obligations.DecoderRegisterSteps := fun _ =>
  ⟨⟨_, rfl, BitVec.toNat_setWidth_of_le (by decide), rfl⟩, ⟨_, rfl, BitVec.toNat_setWidth_of_le (by decide), rfl⟩, rfl⟩

/-- R233: DSIZE counts up below the cap, but for the first data code of a span. -/
theorem dataSent_dsize (s : State) : (dataSent s).enc.dsize =
    if s.enc.firstd = false ∧ s.enc.dsize.toNat < 4096 then s.enc.dsize + 1 else s.enc.dsize := rfl

/-- Settles O44: the sizes have the bits to take FIRST_FREE and to count to the cap, and CUR to take an index. -/
theorem encoderRegisterSteps : Obligations.EncoderRegisterSteps := by
  refine fun s => ⟨⟨encoderInit s, rfl, BitVec.toNat_setWidth_of_le (by decide),
      BitVec.toNat_setWidth_of_le (by decide),
    rfl⟩, ⟨dataSent s, rfl, fun later room => ?counts, fun still => ?stays, rfl⟩,
    ⟨matchStart s, rfl, BitVec.toNat_setWidth_of_le (by decide), rfl, rfl⟩, fun _ => rfl⟩
  case counts =>
    rw [dataSent_dsize, if_pos ⟨later, room⟩]
    exact BitVec.toNat_add_of_lt (show s.enc.dsize.toNat + 1 < 2 ^ 13 by omega)
  case stays =>
    rw [dataSent_dsize, if_neg]
    rintro ⟨later, room⟩
    obtain first | full := still
    · exact Bool.eq_false_iff.mp later first
    · exact room.not_ge full

end Sys2Proof.Machine

/-! DEFRAME (R150 to R154): the step level's loop and the transaction level's deframing go through IN block by block
together. -/

namespace Sys2Proof.Machine

variable {s t : State} {payload block rest : List Byte} {L : Byte} {n consumed : Nat}

/-- PAY holds `payload`, and PLEN counts it. -/
structure PayHolds (s : State) (payload : List Byte) : Prop where
  plen  : s.unp.plen.toNat = payload.length
  bytes : ∀ j (h : j < payload.length), s.pay.read j = payload[j]

/-- Settles O28: one write of the block behind what PAY holds; the cursors fit by hypothesis. -/
theorem framingWordEffects : Obligations.FramingWordEffects := by
  refine fun s => ⟨fun payload _ plen fpos => ?subblock, fun fpos => ?term⟩
  case subblock =>
    refine ⟨takeSubblock payload s, rfl, narrow_toNat plen, narrow_toNat fpos, fun j hj => ?_, fun a ha => ?_, rfl⟩
    · exact Memory.read_writeList_inside _ payload j hj
    · exact Memory.read_writeList_outside _ payload ha
  case term => exact ⟨takeTerm s, rfl, narrow_toNat fpos, narrow_toNat fpos, rfl⟩

/-- R150: a block is put behind the payload there is. -/
theorem PayHolds.takeSubblock (holds : PayHolds s payload) (fits : payload.length + block.length < 2 ^ 32) :
    PayHolds (takeSubblock block s) (payload ++ block) := by
  have plen : (Machine.takeSubblock block s).unp.plen.toNat = payload.length + block.length := by
    rw [← holds.plen] at fits ⊢
    exact narrow_toNat fits
  refine ⟨by rw [plen, List.length_append], fun j hj => ?_⟩
  show (s.pay.writeList s.unp.plen.toNat block).read j = _
  rw [holds.plen, List.getElem_append]
  split_ifs with before
  · rw [Memory.read_writeList_outside _ _ (.inl before), holds.bytes j before]
  · rw [List.length_append] at hj
    have inside := s.pay.read_writeList_inside payload.length block (j - payload.length) (by omega)
    rwa [Nat.add_sub_cancel' (Nat.le_of_not_lt before)] at inside

@[simp] theorem length_inputBytes (s : State) : (inputBytes s).length = s.lat.ilen.toNat := by
  rw [inputBytes, List.length_map, List.length_range]

theorem inputBytes_getElem {i : Nat} (h : i < (inputBytes s).length) : (inputBytes s)[i] = s.inp.read i := by
  simp only [inputBytes, List.getElem_map, List.getElem_range]

theorem bytesLeft_eq_drop (s : State) : bytesLeft s = (inputBytes s).drop s.unp.fpos.toNat := by
  refine List.ext_getElem (by simp [bytesLeft]) fun i hi hi' => ?_
  rw [List.getElem_drop, inputBytes_getElem]
  simp only [bytesLeft, List.getElem_map, List.getElem_range]

theorem length_bytesLeft (s : State) : (bytesLeft s).length = s.lat.ilen.toNat - s.unp.fpos.toNat := by
  rw [bytesLeft_eq_drop, List.length_drop, length_inputBytes]

/-- R150: past a sub-block, what is left of IN is what followed it. -/
theorem bytesLeft_takeSubblock (left : bytesLeft s = L :: (block ++ rest))
    (fpos : (takeSubblock block s).unp.fpos.toNat = s.unp.fpos.toNat + 1 + block.length) :
    bytesLeft (takeSubblock block s) = rest := by
  rw [bytesLeft_eq_drop] at left
  have same : inputBytes (takeSubblock block s) = inputBytes s := rfl
  rw [bytesLeft_eq_drop, same, fpos, Nat.add_assoc, ← List.drop_drop, left, Nat.add_comm 1, List.drop_succ_cons,
    List.drop_left]

/-- What DEFRAME's loop answers where the transaction level's deframing has `result` (R150 to R152). -/
def DeframeAnswers (s : State) (n : Nat) : Except Cause (List Byte × Nat) → Prop
  | .ok (payload, consumed) => ∃ t, deframeLoop n s = .ok t ∧ PayHolds t payload ∧ t.unp.icons.toNat = consumed ∧
      ∀ a, payload.length ≤ a → t.pay.read a = s.pay.read a
  | .error x => deframeLoop n s = .error x

/-- The payload only grows, so what is beyond it was beyond it before the block. -/
theorem DeframeAnswers.of_takeSubblock {r : Except Cause (List Byte × Nat)}
    (loop : deframeLoop (n + 1) s = deframeLoop n (takeSubblock block s))
    (grows : ∀ payload consumed, r = .ok (payload, consumed) → s.unp.plen.toNat + block.length ≤ payload.length)
    (rest : DeframeAnswers (takeSubblock block s) n r) : DeframeAnswers s (n + 1) r := by
  match r, rest with
  | .error x, rest => exact loop.trans rest
  | .ok (payload, consumed), ⟨t, answer, holds, icons, beyond⟩ =>
    refine ⟨t, loop.trans answer, holds, icons, fun a ha => (beyond a ha).trans ?_⟩
    exact Memory.read_writeList_outside _ _ (.inr ((grows payload consumed rfl).trans ha))

theorem txDeframe_ok_length {bytes out : List Byte} {consumed' : Nat}
    (h : txDeframe n bytes payload consumed = .ok (out, consumed')) : payload.length ≤ out.length := by
  induction n generalizing bytes payload consumed with
  | zero => cases h
  | succ n ih =>
    match bytes with
    | [] => cases h
    | L :: rest =>
      rw [txDeframe] at h
      split_ifs at h with term overrun
      · rw [Except.ok.injEq, Prod.mk.injEq] at h
        rw [h.1]
      · have grown := ih h
        rw [List.length_append] at grown
        exact (Nat.le_add_right _ _).trans grown

/-- R150 to R152: turn by turn, the loop over the cursor is the loop over the bytes that are left. -/
theorem deframeLoop_answers (holds : PayHolds s payload) (behind : payload.length ≤ s.unp.fpos.toNat)
    (inside : s.unp.fpos.toNat ≤ s.lat.ilen.toNat) :
    DeframeAnswers s n (txDeframe n (bytesLeft s) payload s.unp.fpos.toNat) := by
  have ilen := s.lat.ilen.isLt
  induction n generalizing s payload with
  | zero => rfl
  | succ n ih =>
    have length := length_bytesLeft s
    cases left : bytesLeft s with
    | nil =>
      show deframeLoop (n + 1) s = _
      rw [deframeLoop, left, decodeFrame]
    | cons L rest =>
      rw [left, List.length_cons] at length
      by_cases term : L = 0#8
      · have loop : deframeLoop (n + 1) s = .ok (takeTerm s) := by rw [deframeLoop, left, decodeFrame, if_pos term]
        rw [txDeframe, if_pos term]
        exact ⟨_, loop, ⟨holds.plen, holds.bytes⟩, narrow_toNat (by omega), fun _ _ => rfl⟩
      · by_cases overrun : rest.length < L.toNat
        · rw [txDeframe, if_neg term, if_pos overrun]
          show deframeLoop (n + 1) s = _
          rw [deframeLoop, left, decodeFrame, if_neg term, if_pos overrun]
        · obtain ⟨block, tail, rfl, declared⟩ : ∃ block tail, rest = block ++ tail ∧ L.toNat = block.length :=
            ⟨rest.take L.toNat, rest.drop L.toNat, (List.take_append_drop ..).symm,
              (List.length_take_of_le (Nat.le_of_not_lt overrun)).symm⟩
          have nonempty : block ≠ [] := by
            rintro rfl
            exact term (BitVec.eq_of_toNat_eq declared)
          have loop : deframeLoop (n + 1) s = deframeLoop n (takeSubblock block s) := by
            rw [deframeLoop, left, decodeFrame, if_neg term, if_neg overrun, declared, List.take_left]
          rw [List.length_append] at length
          have fpos : (takeSubblock block s).unp.fpos.toNat = s.unp.fpos.toNat + 1 + block.length :=
            narrow_toNat (by omega)
          have next := ih (s := takeSubblock block s) (holds.takeSubblock (by omega))
            (by rw [List.length_append, fpos]; omega) (fpos.trans_le (by omega : _ ≤ s.lat.ilen.toNat)) ilen
          rw [bytesLeft_takeSubblock left fpos, fpos] at next
          rw [txDeframe_subblock declared nonempty]
          refine next.of_takeSubblock loop fun out consumed answer => ?_
          rw [holds.plen, ← List.length_append]
          exact txDeframe_ok_length answer

/-- R150, R154: DEFRAME starts its loop at the first byte of IN with an empty payload. -/
theorem deframe_answers (s : State) : DeframeAnswers (s.setUnp { s.unp with fpos := 0, plen := 0 })
    (s.lat.ilen.toNat + 1) (txDeframe (s.lat.ilen.toNat + 1) (inputBytes s) [] 0) := by
  have answers := deframeLoop_answers (s := s.setUnp { s.unp with fpos := 0, plen := 0 })
    (n := s.lat.ilen.toNat + 1) (payload := []) ⟨rfl, by simp⟩ (Nat.zero_le _) (Nat.zero_le _)
  rw [bytesLeft_eq_drop] at answers
  exact answers

/-- R150 to R152: DEFRAME of a well-framed input. -/
theorem deframe_of_txDeframe_ok
    (h : txDeframe (s.lat.ilen.toNat + 1) (inputBytes s) [] 0 = .ok (payload, consumed)) :
    ∃ t, deframe s = .ok t ∧ PayHolds t payload ∧ t.unp.icons.toNat = consumed ∧
      (∀ a, payload.length ≤ a → t.pay.read a = s.pay.read a) := by
  have answers := deframe_answers s
  rw [h] at answers
  obtain ⟨t, loop, holds, icons, beyond⟩ := answers
  refine ⟨t.setUnp { t.unp with bitpos := 0 }, ?_, ⟨holds.plen, holds.bytes⟩, icons, beyond⟩
  rw [deframe, loop]

theorem deframe_of_txDeframe_error {x : Cause}
    (h : txDeframe (s.lat.ilen.toNat + 1) (inputBytes s) [] 0 = .error x) : deframe s = .error x := by
  have answers := deframe_answers s
  rw [h] at answers
  rw [deframe, show deframeLoop _ _ = _ from answers]

theorem exec_deframe_of_ok (h : deframe s = .ok t) : exec .deframe s = .next t := by
  show execDeframe s = _
  rw [execDeframe, h]

theorem exec_deframe_of_error {x : Cause} (h : deframe s = .error x) : exec .deframe s = exec (.abort x) s := by
  show execDeframe s = _
  rw [execDeframe, h]
  rfl

/-- Settles O29: DEFRAME answers what the transaction level's deframing has. -/
theorem deframeSeparatesPayload : Obligations.DeframeSeparatesPayload := by
  refine fun s => ⟨fun payload consumed h => ?_, fun x h => exec_deframe_of_error (deframe_of_txDeframe_error h)⟩
  obtain ⟨t, deframed, holds, icons, beyond⟩ := deframe_of_txDeframe_ok h
  obtain ⟨frame, bitpos⟩ := deframe_frame deframed
  exact ⟨t, exec_deframe_of_ok deframed, holds.plen, icons, bitpos, holds.bytes, beyond, frame⟩

end Sys2Proof.Machine

/-! The packer without a room to count: what a code, and FLUSH, may add to OUT and to the payload's length (R142 to
R147). -/

namespace Sys2Proof.Machine

variable {s t u s' t' : State} {v w : Nat}

/-- From `s` to `t` the packer took at most `w` bits: ACC stays clean, and only bytes those bits complete are stored.
Where OPLEN cannot count a byte it is left with less (log 19), so this holds with no room as well. -/
structure Packs (s t : State) (w : Nat) : Prop where
  clean : accClean s → accClean t
  len   : packedLen t ≤ packedLen s + w
  cells : ∀ p ∈ t.out.cells, p ∈ s.out.cells ∨ ∃ i, 8 * i < packedLen s + w ∧ p.1 = payloadAddr i

theorem Packs.refl (s : State) : Packs s s 0 := ⟨id, le_rfl, fun _ => .inl⟩

theorem Packs.trans (first : Packs s t v) (second : Packs t u w) : Packs s u (v + w) := by
  have len := first.len
  have len' := second.len
  refine ⟨second.clean ∘ first.clean, by omega, fun p hp => ?_⟩
  obtain before | ⟨i, hi, stored⟩ := second.cells p hp
  · exact (first.cells p before).imp_right fun ⟨i, hi, stored⟩ => ⟨i, by omega, stored⟩
  · exact .inr ⟨i, by omega, stored⟩

theorem Packs.mono (h : Packs s t v) (le : v ≤ w) : Packs s t w :=
  ⟨h.clean, h.len.trans (Nat.add_le_add_left le _), fun p hp => (h.cells p hp).imp_right fun ⟨i, hi, stored⟩ =>
    ⟨i, hi.trans_le (Nat.add_le_add_left le _), stored⟩⟩

/-- What the packer took shows in OUT and the packer's cursor alone. -/
theorem Packs.congr (h : Packs s t w) (before : s'.out = s.out ∧ s'.pk = s.pk)
    (after : t'.out = t.out ∧ t'.pk = t.pk) : Packs s' t' w := by
  obtain ⟨clean, len, cells⟩ := h
  obtain ⟨out, pk⟩ := before
  obtain ⟨out', pk'⟩ := after
  constructor <;> simp only [packedLen, accClean, out, pk, out', pk'] at * <;> assumption

theorem packs_writeBit (bit : Bool) (s : State) : Packs s (writeBit bit.toNat s) 1 := by
  refine ⟨fun clean => accClean_writeBit clean bit, ?len, ?cells⟩ <;> by_cases full : s.pk.nacc.toNat = 7
  case pos =>
    have counted := narrow_le 32 (s.pk.oplen.toNat + 1)
    rw [writeBit_of_full _ full]
    show 8 * (narrow 32 (s.pk.oplen.toNat + 1)).toNat + 0 ≤ 8 * s.pk.oplen.toNat + s.pk.nacc.toNat + 1
    omega
  case neg =>
    rw [writeBit_of_notFull _ full]
    exact (congrArg (8 * s.pk.oplen.toNat + ·) (nacc_succ_toNat full)).le
  case pos =>
    rw [writeBit_of_full _ full]
    intro p hp
    obtain rfl | before := Memory.mem_write _ hp
    · exact .inr ⟨s.pk.oplen.toNat, by rw [packedLen]; omega, rfl⟩
    · exact .inl before
  case neg =>
    rw [writeBit_of_notFull _ full]
    exact fun _ => .inl

theorem packs_writeBits (c i n : Nat) (s : State) : Packs s (writeBits c i n s) n := by
  induction n generalizing i s with
  | zero => exact .refl s
  | succ n ih =>
    rw [writeBits, bitAt_eq_toNat_testBit, Nat.add_comm n]
    exact (packs_writeBit _ s).trans (ih (i + 1) _)

/-- R236: a code is at most 12 bits. -/
theorem packs_emitCode (c : Code) (s : State) : Packs s (emitCode c s) 12 :=
  (packs_writeBits _ _ _ s).mono (Wd_le_twelve _)

theorem packs_sendData (c : Code) (s : State) : Packs s (sendData c s) 12 :=
  (packs_emitCode c s).congr ⟨rfl, rfl⟩ ⟨rfl, rfl⟩

/-- R240: INSERT_E packs the reset CLEAR at most. -/
theorem packs_insertE (p : Code) (c : Byte) (s : State) : Packs s (insertE p c s) 12 := by
  obtain below | full := Nat.lt_or_ge s.enc.esize.toNat 4096
  · rw [insertE_of_below p c below]
    split_ifs
    · exact (packs_emitCode _ (storeEntry p c s)).congr ⟨rfl, rfl⟩ ⟨rfl, rfl⟩
    · exact (Packs.refl s).mono (Nat.zero_le _) |>.congr ⟨rfl, rfl⟩ ⟨rfl, rfl⟩
  · rw [insertE_of_full p c full]
    exact (Packs.refl s).mono (Nat.zero_le _)

/-- R239: MISS packs one data code and at most one CLEAR. -/
theorem packs_miss (c : Byte) (s : State) : Packs s (miss c s) 24 :=
  ((packs_sendData s.enc.cur s).trans (packs_insertE s.enc.cur c _)).congr ⟨rfl, rfl⟩ ⟨rfl, rfl⟩

/-- Settles O45: each is EMIT, and then touches neither OUT nor the packer. -/
theorem emissionsAppendOneCode : Obligations.EmissionsAppendOneCode := by
  intro s clean
  have control (c : BitVec 9) (room : packRoom s 12) :
      Appends s (emitCode (c.setWidth 12) s) c.toNat (Wd s.enc.dsize.toNat) := by
    have appended := appends_emitCode clean room (c.setWidth 12)
    rwa [BitVec.toNat_setWidth_of_le (by decide)] at appended
  have data (c : Code) : (packRoom s 12 → Appends s (sendData c s) c.toNat (Wd s.enc.dsize.toNat)) ∧
      exec .dataSent { s with out := (sendData c s).out, pk := (sendData c s).pk } = .next (sendData c s) :=
    ⟨fun room => (appends_emitCode clean room c).congr ⟨rfl, rfl⟩ ⟨rfl, rfl⟩,
      congrArg (Host.Outcome.next ∘ dataSent) (emitCode_frame c s).symm⟩
  obtain ⟨esize, dsize⟩ := clearFull_sizes s
  exact ⟨fun c => ⟨_, rfl, fun room => appends_emitCode clean room c, emitCode_frame c s⟩,
    ⟨_, rfl, control s.lat.clear, emitCode_frame _ s⟩, ⟨_, rfl, control s.lat.endCode, emitCode_frame _ s⟩,
    fun c => ⟨_, rfl, data c⟩, ⟨_, rfl, data s.enc.cur⟩,
    ⟨_, rfl, appends_clearFull clean, esize, dsize, clearFull_frame s⟩⟩

theorem mem_writeLengths {P nb : Nat} {mem : Memory 8} {p : Nat × Byte} (h : p ∈ (writeLengths P nb mem).cells) :
    p ∈ mem.cells ∨ ∃ i, i < nb ∧ p.1 = 256 * i := by
  induction nb with
  | zero => exact .inl h
  | succ nb ih =>
    obtain rfl | before := Memory.mem_write _ h
    · exact .inr ⟨nb, nb.lt_succ_self, rfl⟩
    · exact (ih before).imp_right fun ⟨i, hi, stored⟩ => ⟨i, hi.trans nb.lt_succ_self, stored⟩

theorem flushPartial_oplen_le (s : State) : (flushPartial s).pk.oplen.toNat ≤ flushedLen s := by
  by_cases h : 0 < s.pk.nacc.toNat
  · rw [flushPartial_of_partial h, flushedLen_of_partial h]
    exact narrow_le 32 _
  · rw [flushPartial_of_whole h]
    exact Nat.le_add_right _ _

theorem mem_flushPartial {p : Nat × Byte} (h : p ∈ (flushPartial s).out.cells) :
    p ∈ s.out.cells ∨ p.1 < flushedLen s + subBlocks (flushedLen s) := by
  by_cases hn : 0 < s.pk.nacc.toNat
  · rw [flushPartial_of_partial hn] at h
    obtain rfl | before := Memory.mem_write _ h
    · rw [flushedLen_of_partial hn]
      exact .inr (payloadAddr_lt_terminator _)
    · exact .inl before
  · rw [flushPartial_of_whole hn] at h
    exact .inl h

/-- R147: nothing FLUSH stores is beyond the terminator of the payload's length. -/
theorem mem_flushOut {p : Nat × Byte} (h : p ∈ (flushOut s).out.cells) :
    p ∈ s.out.cells ∨ p.1 ≤ flushedLen s + subBlocks (flushedLen s) := by
  have len := flushPartial_oplen_le s
  have blocks : subBlocks (flushPartial s).pk.oplen.toNat ≤ subBlocks (flushedLen s) :=
    Nat.div_le_div_right (Nat.add_le_add_right len _)
  obtain rfl | framed := Memory.mem_write _ h
  · exact .inr (Nat.add_le_add len blocks)
  · obtain before | ⟨i, hi, stored⟩ := mem_writeLengths framed
    · exact (mem_flushPartial before).imp_right Nat.le_of_lt
    · have := lengthAddr_lt_terminator hi
      exact .inr (by omega)

end Sys2Proof.Machine

/-! Phase CHECK (R306, R314, R338 to R343): each check in its place, for both operations. -/

namespace Sys2Proof.Machine

variable {s : State}

/-! ### The checks as the spec words them -/

theorem mcsLegal_iff {m : Nat} : mcsLegal m = true ↔ 2 ≤ m ∧ m ≤ 8 := decide_eq_true_iff

theorem mcsLegal_eq_false_iff {m : Nat} : mcsLegal m = false ↔ ¬(2 ≤ m ∧ m ≤ 8) := decide_eq_false_iff_not

theorem dimsBad_iff {l : Latched} : dimsBad l = true ↔ l.wid.toInt ≤ 0 ∨ l.hgt.toInt ≤ 0 := decide_eq_true_iff

theorem dimsBad_eq_false_iff {l : Latched} : dimsBad l = false ↔ 0 < l.wid.toInt ∧ 0 < l.hgt.toInt := by
  rw [dimsBad, decide_eq_false_iff_not, not_or, Int.not_le, Int.not_le]

theorem overCapacity_true {caps : Params} {N ilen need : Nat} : overCapacity caps N ilen need = true ↔
    caps.maxPixels < N ∨ caps.inCap < ilen ∨ caps.outCap < need := decide_eq_true_iff

theorem toInt_eq_toNat_of_pos {v : Word} (h : 0 < v.toInt) : v.toInt = v.toNat := by
  rw [← toNat_eq_of_toInt_pos h, Int.toNat_of_nonneg h.le]

/-- R42: of positive dimensions the pixel count is their signed product. -/
theorem pixelCount_cast {l : Latched} (wid : 0 < l.wid.toInt) (hgt : 0 < l.hgt.toInt) :
    l.wid.toInt * l.hgt.toInt = (pixelCount l : Int) := by
  rw [toInt_eq_toNat_of_pos wid, toInt_eq_toNat_of_pos hgt, pixelCount, Nat.cast_mul]

theorem pixelCount_pos {l : Latched} (wid : 0 < l.wid.toInt) (hgt : 0 < l.hgt.toInt) : 0 < pixelCount l := by
  have positive := Int.mul_pos wid hgt
  rwa [pixelCount_cast wid hgt, Int.natCast_pos] at positive

/-- R343: an index of the input at or above `2^m`. -/
theorem indexBad_iff : indexBad s = true ↔ ∃ i, i < pixelCount s.lat ∧ 2 ^ s.lat.m.toNat ≤ (s.inp.read i).toNat := by
  simp [indexBad]

theorem indexBad_eq_false_iff :
    indexBad s = false ↔ ∀ i, i < pixelCount s.lat → (s.inp.read i).toNat < 2 ^ s.lat.m.toNat := by
  simp [indexBad]

/-! ### The steps -/

/-- `N` latched and the phase that follows CHECK entered (R306, R314). -/
def checked (p : Phase) (s : State) : State := (s.setLat { s.lat with n := pixelCount s.lat }).setPhase p

@[simp] theorem checked_phase (p : Phase) (s : State) : (checked p s).phase = p := rfl

/-- R245: the state in which phase ENCODE begins. -/
def opened (s : State) : State :=
  matchStart (emitCode (s.lat.clear.setWidth 12) (encoderInit s))

theorem blockStep_of_checkDecode (check : s.phase = .check) (op : s.lat.op = .decode) :
    blockStep s = checkDecode s := by
  rw [blockStep, check]
  show checkPhase s = _
  rw [checkPhase, op]

theorem blockStep_of_checkEncode (check : s.phase = .check) (op : s.lat.op = .encode) : blockStep s =
    andThen (checkEncode s) fun t => if t.phase = .encode then openEncode t else .next t := by
  rw [blockStep, check]
  show checkPhase s = _
  rw [checkPhase, op]

theorem openEncode_eq (s : State) : openEncode s = .next (opened s) := rfl

theorem checkDecode_of_passed (mcs : mcsLegal s.lat.m.toNat = true) (dims : dimsBad s.lat = false)
    (within : beyondCapacity s (pixelCount s.lat) = false) : checkDecode s = .next (checked .deframe s) := by
  simp [checkDecode, mcs, dims, within, checked]

theorem checkDecode_of_beyond (mcs : mcsLegal s.lat.m.toNat = true) (dims : dimsBad s.lat = false)
    (beyond : beyondCapacity s (pixelCount s.lat) = true) : checkDecode s = .refused .beyondCapacity := by
  simp [checkDecode, mcs, dims, beyond]

theorem checkDecode_of_dims (mcs : mcsLegal s.lat.m.toNat = true) (dims : dimsBad s.lat = true) :
    checkDecode s = .next (abortState .dimNonpositive s) := by
  simp [checkDecode, mcs, dims]

theorem checkDecode_of_mcs (mcs : mcsLegal s.lat.m.toNat = false) :
    checkDecode s = .next (abortState .mcsRange s) := if_pos mcs

/-- Settles O18: the checks in R338's order, and the signed product read as the pixel count. -/
theorem checkOfDecode : Obligations.CheckOfDecode := by
  intro s check op
  rw [blockStep_of_checkDecode check op]
  refine ⟨fun illegal => checkDecode_of_mcs (mcsLegal_eq_false_iff.mpr illegal), fun low high bad =>
    checkDecode_of_dims (mcsLegal_iff.mpr ⟨low, high⟩) (dimsBad_iff.mpr bad), fun low high wid hgt beyond => ?beyond,
    fun low high wid hgt pixels ilen out => ?passed⟩
  all_goals
    have mcs := mcsLegal_iff.mpr ⟨low, high⟩
    have dims := dimsBad_eq_false_iff.mpr ⟨wid, hgt⟩
    have count := pixelCount_cast wid hgt
  case beyond =>
    rw [count, Int.ofNat_lt, Int.ofNat_lt] at beyond
    exact checkDecode_of_beyond mcs dims (overCapacity_true.mpr beyond)
  case passed =>
    rw [count, Int.ofNat_le] at pixels out
    rw [count]
    exact ⟨_, checkDecode_of_passed mcs dims (overCapacity_false.mpr ⟨pixels, ilen, out⟩), rfl, rfl⟩

theorem blockStep_of_checkEncode_abort {x : Cause} (check : s.phase = .check) (op : s.lat.op = .encode)
    (aborts : checkEncode s = .next (abortState x s)) : blockStep s = exec (.abort x) s := by
  rw [blockStep_of_checkEncode check op, aborts]
  rfl

/-- An ENCODE of legal `m` and positive dimensions fails its length, then its capacity, then its indices, or passes. -/
theorem checkEncode_eq (mcs : mcsLegal s.lat.m.toNat = true) (dims : dimsBad s.lat = false) : checkEncode s =
    if s.lat.ilen.toNat ≠ pixelCount s.lat then .next (abortState .encodeLength s)
    else if beyondCapacity s (framedBound (pixelCount s.lat)) then .refused .beyondCapacity
    else if indexBad s then .next (abortState .indexRange s)
    else .next (checked .encode s) := by
  rw [checkEncode, if_neg (ne_false_of_eq_true mcs), if_neg (ne_true_of_eq_false dims)]
  rfl

theorem checkEncode_of_dims (mcs : mcsLegal s.lat.m.toNat = true) (dims : dimsBad s.lat = true) :
    checkEncode s = .next (abortState .dimNonpositive s) := by
  simp [checkEncode, mcs, dims]

/-- R314, R245: a passed CHECK opens phase ENCODE in the same step (log 7). -/
theorem blockStep_of_checkEncode_passed (check : s.phase = .check) (op : s.lat.op = .encode)
    (passes : checkEncode s = .next (checked .encode s)) : blockStep s = .next (opened (checked .encode s)) := by
  rw [blockStep_of_checkEncode check op, passes]
  rfl

/-- Settles O19: the checks in R338's order; a passed one is followed by the three steps that open ENCODE. -/
theorem checkOfEncode : Obligations.CheckOfEncode := by
  intro s check op
  refine ⟨fun illegal => ?mcs, fun low high => ⟨fun bad => ?dims, fun wid hgt => ?_⟩⟩
  case mcs => exact blockStep_of_checkEncode_abort check op (if_pos (mcsLegal_eq_false_iff.mpr illegal))
  case dims =>
    exact blockStep_of_checkEncode_abort check op
      (checkEncode_of_dims (mcsLegal_iff.mpr ⟨low, high⟩) (dimsBad_iff.mpr bad))
  rw [pixelCount_cast wid hgt]
  have steps := checkEncode_eq (mcsLegal_iff.mpr ⟨low, high⟩) (dimsBad_eq_false_iff.mpr ⟨wid, hgt⟩)
  refine ⟨fun length => ?length, fun length => ?_⟩
  case length =>
    rw [if_pos (by exact_mod_cast length)] at steps
    exact blockStep_of_checkEncode_abort check op steps
  have length : s.lat.ilen.toNat = pixelCount s.lat := by exact_mod_cast length
  rw [if_neg (not_not.mpr length)] at steps
  rw [length]
  refine ⟨fun beyond => ?beyond, fun pixels inCap out => ?_⟩
  case beyond =>
    have exceeds : beyondCapacity s (framedBound (pixelCount s.lat)) = true :=
      overCapacity_true.mpr (by rwa [length])
    rw [if_pos exceeds] at steps
    rw [blockStep_of_checkEncode check op, steps]
    rfl
  have within : beyondCapacity s (framedBound (pixelCount s.lat)) = false :=
    overCapacity_false.mpr ⟨pixels, by rwa [length], out⟩
  rw [if_neg (ne_true_of_eq_false within)] at steps
  refine ⟨fun index => ?index, fun legal => ?passed⟩
  case index =>
    rw [if_pos (indexBad_iff.mpr index)] at steps
    exact blockStep_of_checkEncode_abort check op steps
  case passed =>
    rw [if_neg (ne_true_of_eq_false (indexBad_eq_false_iff.mpr legal))] at steps
    exact ⟨_, _, _, blockStep_of_checkEncode_passed check op steps, rfl, rfl, rfl⟩

end Sys2Proof.Machine

/-! The decoder in a run: the sequence a code stands for (R105, R183 to R185), what a data code leaves, and DECSTEP over
every class (R189 to R192). -/

namespace Sys2Proof.Machine

variable {s t : State} {m size k : Nat} {pre : Memory 12} {suf : Memory 8} {S S' : List Byte}

/-! ### Sequences (R43, R191) -/

theorem Spells.ne_nil (h : Spells m size pre suf k S) : S ≠ [] := by
  cases h <;> simp

theorem Spells.spellable (h : Spells m size pre suf k S) (sized : 2 ^ m ≤ size) : spellable m size k := by
  cases h with
  | literal _ isLit => exact ⟨isLit.trans_le sized, isLit.ne, by omega⟩
  | entry _ P first below => exact ⟨below, by omega, by omega⟩

/-- R43: a code is a literal or an entry, and an entry has one PREFIX, so one sequence. -/
theorem Spells.unique (h : Spells m size pre suf k S) (h' : Spells m size pre suf k S') : S' = S := by
  induction h generalizing S' with
  | literal k isLit =>
    cases h' with
    | literal => rfl
    | entry _ _ first => omega
  | entry k P first _ _ ih =>
    cases h' with
    | literal _ isLit => omega
    | entry _ _ _ _ spelled => rw [ih spelled]

/-- R191: literals are below `2^m`, and so are suffixes. -/
theorem Spells.symbols_lt (dict : DictOk m size pre suf) (h : Spells m size pre suf k S) :
    ∀ b ∈ S, b.toNat < 2 ^ m := by
  induction h with
  | literal k isLit =>
    intro b hb
    rw [List.mem_singleton.mp hb]
    exact (Nat.mod_le _ _).trans_lt isLit
  | entry k P first below _ ih =>
    obtain ⟨-, symbol⟩ := dict.entries k first below
    simpa [or_imp, forall_and] using ⟨ih, symbol⟩

/-- Settles O35: along the chain of PREFIX. -/
theorem sequencesAreLiteral : Obligations.SequencesAreLiteral := fun _ _ _ ready spelled =>
  ⟨spelled.ne_nil, spelled.symbols_lt ready.dict, fun _ => spelled.unique⟩

/-! ### What CHECK establishes (R42, R340, R341) -/

theorem RunInv.latchOk (run : RunInv s) (busy : s.phase ≠ .idle) (passed : s.phase ≠ .check) : LatchOk s := by
  obtain ⟨⟨-, small⟩, -⟩ := run.checked busy passed
  exact latchOk_of_latched small (run.latched busy)

theorem RunInv.placeOk (run : RunInv s) (busy : s.phase ≠ .idle) (passed : s.phase ≠ .check) : PlaceOk s := by
  obtain ⟨-, ⟨wid, hgt⟩, n, -⟩ := run.checked busy passed
  exact ⟨wid, hgt, n⟩

/-- In phase LZWDEC every code the decoder meets can be resolved. -/
theorem DecInv.ready (inv : DecInv s) (run : RunInv s) (h : s.phase = .lzwdec) : DecReady s :=
  ⟨run.latchOk (by simp [h]) (by simp [h]), inv.dict h, inv.prev h⟩

theorem decCtx_ok (run : RunInv s) (inv : DecInv s) (h : s.phase = .lzwdec) : s.decCtx.ok = true := by
  obtain ⟨⟨low, high⟩, -⟩ := run.checked (by simp [h]) (by simp [h])
  exact decide_eq_true ⟨low, high, (inv.dict h).lower, (inv.dict h).upper⟩

/-! ### DECSTEP reads a code (R101, R156, R189) -/

theorem sumBits_congr {f g : Nat → Nat} {w : Nat} (h : ∀ i, i < w → f i = g i) : sumBits f w = sumBits g w := by
  induction w with
  | zero => rfl
  | succ w ih => rw [sumBits, sumBits, ih fun i hi => h i (hi.trans w.lt_succ_self), h w w.lt_succ_self]

/-- The code of the next `Wd(D)` payload bits. -/
def decCode (s : State) : Code := BitVec.ofNat 12 (nextCode s.decWidth s)

theorem nextCode_lt_cap (s : State) : nextCode s.decWidth s < 4096 :=
  (nextCode_lt _ s).trans_le (Nat.pow_le_pow_right Nat.two_pos (Wd_le_twelve _))

theorem decCode_toNat (s : State) : (decCode s).toNat = nextCode s.decWidth s :=
  Nat.mod_eq_of_lt (nextCode_lt_cap s)

theorem codeOfBits_payloadBits (s : State) : codeOfBits (payloadBits s s.decWidth) = decCode s := by
  have length : (payloadBits s s.decWidth).length = s.decWidth := by simp [payloadBits]
  rw [codeOfBits, decCode, length, nextCode, payloadBit_eq_toNat_getLsbD]
  refine congrArg _ (sumBits_congr fun i hi => ?_)
  rw [List.getD_eq_getElem _ _ (length.symm ▸ hi)]
  simp only [payloadBits, List.getElem_map, List.getElem_range]

/-- The instruction of the next `Wd(D)` payload bits is the class their code is in. -/
theorem decode_payloadBits (s : State) : decode s.decCtx (.code (payloadBits s (Wd s.dec.d.toNat))) =
    .ok (classify s.decCtx (decCode s)).instr := by
  have length : (payloadBits s s.decWidth).length = Wd s.decCtx.d := by simp [payloadBits, State.decWidth, State.decCtx]
  rw [← codeOfBits_payloadBits]
  exact if_pos length

theorem advanced_bitpos {w : Nat} (enough : s.unp.bitpos.toNat + w ≤ 8 * s.unp.plen.toNat) :
    (advanced s w).unp.bitpos.toNat = s.unp.bitpos.toNat + w := by
  have plen := s.unp.plen.isLt
  exact Nat.mod_eq_of_lt (show s.unp.bitpos.toNat + w < 2 ^ 35 by omega)

theorem readCode_of_enough (enough : s.unp.bitpos.toNat + s.decWidth ≤ 8 * s.unp.plen.toNat) :
    readCode s.decWidth s = some (decCode s, advanced s s.decWidth) := by
  have plen := s.unp.plen.isLt
  have code : narrow 12 (nextCode s.decWidth s) = decCode s := if_pos (nextCode_lt_cap s)
  have cursor : narrow 35 (s.unp.bitpos.toNat + s.decWidth) = BitVec.ofNat 35 (s.unp.bitpos.toNat + s.decWidth) :=
    if_pos (by omega)
  rw [readCode, if_neg enough.not_gt, cursor, ← code]
  rfl

theorem exec_decstep_of_enough (enough : s.unp.bitpos.toNat + s.decWidth ≤ 8 * s.unp.plen.toNat) :
    exec .decstep s = execClass (classify s.decCtx (decCode s)) (advanced s s.decWidth) := by
  show execDecstep s = _
  rw [execDecstep, readCode_of_enough enough]
  rfl

theorem exec_decstep_of_short (short : 8 * s.unp.plen.toNat < s.unp.bitpos.toNat + s.decWidth) :
    exec .decstep s = exec (.abort .prematureEnd) s := by
  show execDecstep s = _
  rw [execDecstep, readCode_none.mpr short]
  rfl

theorem execClass_eq_exec (k : CodeClass) (s : State) : execClass k s = exec k.instr s := by
  cases k <;> rfl

/-- Settles O15: the bits spell the code that READCODE returns. -/
theorem decstepRunsDecodedCode : Obligations.DecstepRunsDecodedCode := fun s enough =>
  ⟨_, decode_payloadBits s, (exec_decstep_of_enough enough).trans (execClass_eq_exec _ _)⟩

/-! ### Data codes (R183 to R185) -/

/-- The classes that output a sequence. -/
def isDataClass : CodeClass → Bool
  | .lit _ | .dict _ | .defer => true
  | .clear | .endCode | .badcode _ => false

/-- What a data code stands for: its sequence, or at `D` what INSERT is about to give that code (R185). -/
inductive Stands (s : State) (c : Nat) : List Byte → Prop
  | known {S : List Byte} : decSpells s c S → Stands s c S
  | next {P : List Byte} {b : Byte} : c = s.dec.d.toNat → c < 4096 → s.dec.prevValid = true →
      decSpells s s.dec.prev.toNat P → P.head? = some b → Stands s c (P ++ [b])

/-- From `s` to `t` a data code `c` that stands for `q` was output and inserted (R183 to R185). -/
structure DataStep (s t : State) (c : Nat) (q : Seq) : Prop where
  stands   : Stands s c q.syms
  stored   : Stored s t q.syms
  inserted : Inserted s t c q.first
  frame    : t = { s with out := t.out, stk := t.stk, dec := t.dec, prefixMem := t.prefixMem, suffixMem := t.suffixMem }

/-- R183 to R185: in a run every data code completes. -/
theorem execClass_of_data {k : CodeClass} {c : Code} (ready : DecReady s) (place : PlaceOk s)
    (h : k.Condition s.decCtx c) (data : isDataClass k = true) :
    ∃ t q, execClass k s = .next t ∧ DataStep s t c.toNat q := by
  cases k with
  | clear | endCode | badcode => cases data
  | lit b =>
    obtain ⟨isLit, value⟩ := h
    have code : b.setWidth 12 = c := BitVec.eq_of_toNat_eq ((BitVec.toNat_setWidth_of_le (by decide)).trans value)
    have spelled : decSpells s c.toNat [b] := by
      have literal : decSpells s c.toNat [BitVec.ofNat 8 c.toNat] := .literal _ isLit
      rwa [← value, BitVec.ofNat_toNat, BitVec.setWidth_eq, value] at literal
    obtain ⟨stored, inserted, frame⟩ := emitSeq_after_resolve c ⟨b, []⟩ place (stk := s.stk) rfl
    refine ⟨_, ⟨b, []⟩, ?_, .known spelled, stored, inserted, frame⟩
    rw [← code]
    rfl
  | dict k =>
    obtain ⟨rfl, first, below⟩ := h
    have first : 2 ^ s.lat.m.toNat + 2 ≤ k.toNat := first
    obtain ⟨q, resolved, spelled⟩ := resolve_of_spellable (k := k) ready ⟨below, by omega, by omega⟩
    obtain ⟨stored, inserted, frame⟩ := emitSeq_after_resolve k q place rfl
    refine ⟨_, q, ?_, .known spelled, stored, inserted, frame⟩
    show execDict k s = _
    rw [execDict, resolved]
  | defer =>
    obtain ⟨isNext, room, valid⟩ := h
    have isNext : c.toNat = s.dec.d.toNat := isNext
    obtain ⟨p, resolved, spelled⟩ := resolve_of_spellable ready (ready.prev valid)
    have code : narrow 12 s.dec.d.toNat = c := by
      rw [← isNext]
      exact BitVec.eq_of_toNat_eq (narrow_toNat c.isLt)
    obtain ⟨stored, inserted, frame⟩ := emitSeq_after_resolve c p.deferred place rfl
    refine ⟨_, p.deferred, ?_, .next isNext c.isLt valid spelled rfl, stored, inserted, frame⟩
    show execDefer s = _
    rw [execDefer, resolved, ← code]

theorem Stands.symbols_lt {c : Nat} (ready : DecReady s) (h : Stands s c S) : ∀ b ∈ S, b.toNat < 2 ^ s.lat.m.toNat := by
  cases h with
  | known spelled => exact spelled.symbols_lt ready.dict
  | next _ _ _ spelled head =>
    have symbols := spelled.symbols_lt ready.dict
    simpa [or_imp, forall_and] using ⟨symbols, symbols _ (List.mem_of_mem_head? head)⟩

theorem Stands.code {c : Nat} (ready : DecReady s) (h : Stands s c S) :
    Machine.spellable s.lat.m.toNat s.dec.d.toNat c ∨ (c = s.dec.d.toNat ∧ c < 4096 ∧ s.dec.prevValid = true) := by
  have lower := ready.dict.lower
  cases h with
  | known spelled => exact .inl (spelled.spellable (by omega))
  | next isNext room valid => exact .inr ⟨isNext, room, valid⟩

/-- R187: `D` grows by one or stays. -/
theorem Inserted.d_cases {c : Nat} {s0 : Byte} (h : Inserted s t c s0) :
    (s.dec.prevValid = true ∧ s.dec.d.toNat < 4096 ∧ t.dec.d.toNat = s.dec.d.toNat + 1) ∨ t.dec.d = s.dec.d := by
  by_cases grows : s.dec.prevValid = true ∧ s.dec.d.toNat < 4096
  · obtain ⟨valid, room⟩ := grows
    exact .inl ⟨valid, room, (h.grown valid room).1⟩
  · exact .inr (h.frozen grows).1

/-- R43, R44: the entry `(PREV, S[0])` at `D` keeps a dictionary sound. -/
theorem Inserted.dictOk {c : Nat} {s0 : Byte} (h : Inserted s t c s0) (ready : DecReady s)
    (symbol : s0.toNat < 2 ^ s.lat.m.toNat) :
    DictOk s.lat.m.toNat t.dec.d.toNat t.prefixMem t.suffixMem := by
  by_cases grows : s.dec.prevValid = true ∧ s.dec.d.toNat < 4096
  · obtain ⟨valid, room⟩ := grows
    obtain ⟨size, prev, suffix, other⟩ := h.grown valid room
    rw [size]
    refine ⟨ready.dict.lower.trans (Nat.le_succ _), room, fun k first below => ?_⟩
    obtain held | rfl := Nat.lt_succ_iff_lt_or_eq.mp below
    · obtain ⟨samePrefix, sameSuffix⟩ := other k held.ne
      rw [samePrefix, sameSuffix]
      exact ready.dict.entries k first held
    · rw [prev, suffix]
      exact ⟨ready.prev valid, symbol⟩
  · obtain ⟨size, prefixes, suffixes⟩ := h.frozen grows
    rw [size, prefixes, suffixes]
    exact ready.dict

theorem DataStep.lat {c : Nat} {q : Seq} (h : DataStep s t c q) : t.lat = s.lat := by rw [h.frame]

/-- R187: the code just processed is assigned once it is inserted. -/
theorem DataStep.spellable {c : Nat} {q : Seq} (h : DataStep s t c q) (ready : DecReady s) :
    spellable s.lat.m.toNat t.dec.d.toNat c := by
  have lower := ready.dict.lower
  have grown : s.dec.d.toNat ≤ t.dec.d.toNat := by
    obtain ⟨-, -, size⟩ | size := h.inserted.d_cases
    · omega
    · exact size ▸ le_rfl
  obtain ⟨below, notControl⟩ | ⟨isNext, room, valid⟩ := h.stands.code ready
  · exact ⟨below.trans_le grown, notControl⟩
  · obtain ⟨size, -⟩ := h.inserted.grown valid (isNext ▸ room)
    exact ⟨by omega, by omega, by omega⟩

/-- R43, R46: after a data code the decoder can resolve again. -/
theorem DataStep.ready {c : Nat} {q : Seq} (h : DataStep s t c q) (ready : DecReady s) : DecReady t := by
  have symbol := h.stands.symbols_lt ready q.first List.mem_cons_self
  obtain ⟨small, clear, ended, firstFree⟩ := ready.latch
  rw [← h.lat] at small clear ended firstFree
  refine ⟨⟨small, clear, ended, firstFree⟩, ?_, fun _ => ?_⟩
  · rw [h.lat]
    exact h.inserted.dictOk ready symbol
  · rw [h.lat, h.inserted.prev]
    exact h.spellable ready

/-! ### DECSTEP over every class (R189 to R192) -/

/-- What a DECSTEP that reads a code, of class `k`, does in a run. -/
inductive CodeStep (s : State) : CodeClass → State → Prop
  | clear : CodeStep s .clear (s.setDec { s.dec with
      d := s.lat.firstFree.setWidth 13, prevValid := false, dstate := .cleared })
  | ended : CodeStep s .endCode (s.setDec { s.dec with dstate := .done })
  | data {k : CodeClass} {c : Code} {q : Seq} {t : State} : isDataClass k = true → k.Condition s.decCtx c →
      DataStep s t c.toNat q → CodeStep s k t
  | badcode (c : Code) : CodeStep s (.badcode c)
      (abortState (if s.dec.d.toNat < c.toNat then .badCode else .deferNoPrev) s)

theorem execClass_codeStep {k : CodeClass} {c : Code} (ready : DecReady s) (place : PlaceOk s)
    (h : k.Condition s.decCtx c) : ∃ t, execClass k s = .next t ∧ CodeStep s k t := by
  cases k with
  | clear => exact ⟨_, rfl, .clear⟩
  | endCode => exact ⟨_, rfl, .ended⟩
  | badcode c => exact ⟨_, rfl, .badcode c⟩
  | lit | dict | defer =>
    obtain ⟨t, q, runs, step⟩ := execClass_of_data ready place h rfl
    exact ⟨t, runs, .data rfl h step⟩

theorem advanced_ready {w : Nat} (ready : DecReady s) : DecReady (advanced s w) := by
  obtain ⟨⟨small, clear, ended, firstFree⟩, dict, prev⟩ := ready
  exact ⟨⟨small, clear, ended, firstFree⟩, dict, prev⟩

/-- R189: in a run, with enough bits left, DECSTEP consumes them and does what their code's class does. -/
theorem exec_decstep_codeStep (run : RunInv s) (inv : DecInv s) (h : s.phase = .lzwdec)
    (enough : s.unp.bitpos.toNat + s.decWidth ≤ 8 * s.unp.plen.toNat) :
    ∃ t, exec .decstep s = .next t ∧ CodeStep (advanced s s.decWidth) (classify s.decCtx (decCode s)) t := by
  rw [exec_decstep_of_enough enough]
  obtain ⟨wid, hgt, n⟩ := run.placeOk (by simp [h]) (by simp [h])
  have condition : (classify s.decCtx (decCode s)).Condition s.decCtx (decCode s) :=
    classify_condition (decCtx_ok run inv h)
  exact execClass_codeStep (advanced_ready (inv.ready run h)) ⟨wid, hgt, n⟩ condition

/-- Every class but BADCODE stays in its phase and touches OUT, STK, the decoder and DICT only. -/
theorem CodeStep.frame {k : CodeClass} (step : CodeStep s k t) (notBad : ∀ c, k ≠ .badcode c) : t = { s with
    out := t.out, stk := t.stk, dec := t.dec, prefixMem := t.prefixMem, suffixMem := t.suffixMem } := by
  cases step with
  | clear | ended => rfl
  | data _ _ step => exact step.frame
  | badcode c => exact absurd rfl (notBad c)

/-- Settles O42: the bits left decide on PREMATURE_END, and then the class of the code. -/
theorem decstepCompletes : Obligations.DecstepCompletes := by
  refine fun s run inv h => ⟨exec_decstep_of_short, fun enough => ⟨fun c decoded => ?bad, fun notBad => ?other⟩⟩
  all_goals
    rw [decode_payloadBits] at *
    obtain ⟨t, runs, step⟩ := exec_decstep_codeStep run inv h enough
  case bad =>
    have class_eq : classify s.decCtx (decCode s) = .badcode c := by
      cases k : classify s.decCtx (decCode s) <;> rw [k] at decoded <;> cases decoded
      rfl
    rw [class_eq] at step
    cases step with
    | data data => cases data
    | badcode =>
      obtain ⟨-, -, err, -⟩ := statusWord_fields false true true
        (causeKind (if (advanced s s.decWidth).dec.d.toNat < c.toNat then .badCode else .deferNoPrev))
        (causeDetail (if (advanced s s.decWidth).dec.d.toNat < c.toNat then .badCode else .deferNoPrev))
      exact ⟨_, runs, rfl, rfl, err⟩
  case other =>
    have frame := step.frame fun c class_eq => notBad c (by rw [class_eq]; rfl)
    have cursor := advanced_bitpos enough
    refine ⟨t, runs, ?_⟩
    rw [frame]
    exact ⟨h, rfl, rfl, cursor, rfl⟩

/-! ### The code width (R45, R192) -/

theorem Wd_mono {D D' : Nat} (h : D ≤ D') : Wd D ≤ Wd D' :=
  Wd_le_iff.mpr ((min_le_min_right _ (Nat.succ_le_succ h)).trans (min_le_two_pow_Wd D'))

/-- R15, R192: a new code needs one bit more exactly where it makes the size a power of two below the cap. -/
theorem Wd_lt_Wd_succ_iff {D : Nat} : Wd D < Wd (D + 1) ↔ ∃ w, w ≤ 11 ∧ D + 1 = 2 ^ w := by
  have spells := min_le_two_pow_Wd D
  rw [← not_le, Wd_le_iff, not_le, lt_min_iff]
  constructor
  · rintro ⟨below, cap⟩
    have below12 : Wd D < 12 := (Nat.pow_lt_pow_iff_right Nat.one_lt_two).mp (cap.trans_eq (by decide))
    exact ⟨Wd D, Nat.le_of_lt_succ below12, by omega⟩
  · rintro ⟨w, small, size⟩
    have bound : 2 ^ w ≤ 2 ^ 11 := Nat.pow_le_pow_right Nat.two_pos small
    have width : 2 ^ Wd D ≤ 2 ^ w := Nat.pow_le_pow_right Nat.two_pos (Wd_le_iff.mpr (by omega))
    omega

/-- Settles O43: but for a CLEAR, a DECSTEP that stays in LZWDEC is an END, which keeps `D`, or a data code. -/
theorem widthMonotone : Obligations.WidthMonotone := by
  intro s t run inv h runs stays notCleared
  have unmoved (size : t.dec.d = s.dec.d) : s.dec.d.toNat ≤ t.dec.d.toNat ∧ t.dec.d.toNat ≤ s.dec.d.toNat + 1 ∧
      s.decWidth ≤ t.decWidth ∧ t.decWidth ≤ 12 ∧
      (s.decWidth < t.decWidth ↔ s.dec.d.toNat < t.dec.d.toNat ∧ ∃ w, w ≤ 11 ∧ t.dec.d.toNat = 2 ^ w) := by
    rw [State.decWidth, State.decWidth, size]
    exact ⟨le_rfl, Nat.le_succ _, le_rfl, Wd_le_twelve _, by simp⟩
  obtain short | enough := Nat.lt_or_ge (8 * s.unp.plen.toNat) (s.unp.bitpos.toNat + s.decWidth)
  · rw [exec_decstep_of_short short] at runs
    cases runs
    cases stays
  · obtain ⟨_, runs', step⟩ := exec_decstep_codeStep run inv h enough
    obtain rfl := Host.Outcome.next.inj (runs.symm.trans runs')
    generalize classify s.decCtx (decCode s) = k at step
    cases step with
    | clear => exact absurd rfl notCleared
    | ended => exact unmoved rfl
    | badcode => cases stays
    | data _ _ step =>
      obtain ⟨-, -, size⟩ | size := step.inserted.d_cases
      · have size : t.dec.d.toNat = s.dec.d.toNat + 1 := size
        rw [State.decWidth, State.decWidth, size]
        refine ⟨Nat.le_succ _, le_rfl, Wd_mono (Nat.le_succ _), Wd_le_twelve _, ?_⟩
        exact Wd_lt_Wd_succ_iff.trans (and_iff_right (Nat.lt_succ_self _)).symm
      · exact unmoved size

end Sys2Proof.Machine

/-! The moves of the machine: what the host's next access, and a step of the block, can do. Every invariant is kept
move by move. -/

namespace Sys2Proof.Machine

variable {s t u : State}

/-! ### What the operations of a running transaction leave alone -/

/-- Nothing of what the host and CHECK gave the transaction changes. -/
structure SameRun (s t : State) : Prop where
  regs   : t.regs = s.regs
  lat    : t.lat = s.lat
  params : t.params = s.params
  inp    : t.inp = s.inp
  phase  : t.phase = s.phase

theorem SameRun.refl (s : State) : SameRun s s := ⟨rfl, rfl, rfl, rfl, rfl⟩

theorem SameRun.trans (h : SameRun s t) (h' : SameRun t u) : SameRun s u :=
  ⟨h'.regs.trans h.regs, h'.lat.trans h.lat, h'.params.trans h.params, h'.inp.trans h.inp, h'.phase.trans h.phase⟩

theorem sameRun_emitCode (c : Code) (s : State) : SameRun s (emitCode c s) := by
  rw [emitCode_frame]
  exact ⟨rfl, rfl, rfl, rfl, rfl⟩

theorem sameRun_setEnc (enc : EncRegs) (s : State) : SameRun s (s.setEnc enc) := ⟨rfl, rfl, rfl, rfl, rfl⟩

theorem sameRun_nextIndex (s : State) : SameRun s (nextIndex s) := sameRun_setEnc _ s

theorem sameRun_sendData (c : Code) (s : State) : SameRun s (sendData c s) :=
  (sameRun_emitCode c s).trans (sameRun_setEnc _ _)

theorem sameRun_insertE (p : Code) (c : Byte) (s : State) : SameRun s (insertE p c s) := by
  rw [insertE_frame]
  exact ⟨rfl, rfl, rfl, rfl, rfl⟩

theorem sameRun_miss (c : Byte) (s : State) : SameRun s (miss c s) :=
  ((sameRun_sendData _ s).trans (sameRun_insertE _ c _)).trans (sameRun_setEnc _ _)

/-- R245: the steps that open phase ENCODE. -/
theorem sameRun_opened (s : State) : SameRun s (opened s) :=
  have init : SameRun s (encoderInit s) := ⟨rfl, rfl, rfl, rfl, rfl⟩
  (init.trans (sameRun_emitCode (s.lat.clear.setWidth 12) _)).trans (sameRun_setEnc _ _)

/-- R244, R246: FINAL and E_END. -/
theorem sameRun_encoded (s : State) : SameRun s (emitCode (s.lat.endCode.setWidth 12) (finalMatch s)) :=
  (sameRun_sendData _ s).trans (sameRun_emitCode _ _)

/-- R237, R238: an index that extends the match. -/
theorem sameRun_extended (k : Nat) (s : State) : SameRun s (nextIndex (setCur (narrow 12 k) s)) :=
  (sameRun_setEnc _ s).trans (sameRun_nextIndex _)

/-- R237, R239: an index that does not. -/
theorem sameRun_missed (c : Byte) (s : State) : SameRun s (nextIndex (miss c s)) :=
  (sameRun_miss c s).trans (sameRun_nextIndex _)

theorem sameRun_flushOut (s : State) : SameRun s (flushOut s) := by
  rw [flushOut_frame]
  exact ⟨rfl, rfl, rfl, rfl, rfl⟩

theorem sameRun_emitSeq (c : Code) (q : Seq) (s : State) : SameRun s (emitSeq c q s) := by
  rw [emitSeq_frame]
  exact ⟨rfl, rfl, rfl, rfl, rfl⟩

theorem sameRun_control (dec : DecRegs) (w : Nat) (s : State) : SameRun s ((advanced s w).setDec dec) :=
  ⟨rfl, rfl, rfl, rfl, rfl⟩

/-- A data code once its bits are consumed and its sequence resolved. -/
theorem sameRun_data (c : Code) (q : Seq) (stk : Memory 8) (w : Nat) (s : State) :
    SameRun s (emitSeq c q ((advanced s w).setStk stk)) :=
  have resolved : SameRun s ((advanced s w).setStk stk) := ⟨rfl, rfl, rfl, rfl, rfl⟩
  resolved.trans (sameRun_emitSeq c q _)

theorem sameRun_deframe (h : deframe s = .ok t) : SameRun s t := by
  obtain ⟨frame, -⟩ := deframe_frame h
  rw [frame]
  exact ⟨rfl, rfl, rfl, rfl, rfl⟩

/-! ### The moves -/

/-- What the host's next access does when it completes (R31 to R37, R70, R300, R370). -/
inductive HostMove (s : State) : State → Prop
  | start (op : Op) : s.busy = false → HostMove s (started op s)
  | reset : HostMove s (State.resetWith s.params s.host s.rdata s.diag s.free)
  | writeReg (r : HostRegs) : r.status = s.regs.status → r.outLen = s.regs.outLen →
      r.inConsumed = s.regs.inConsumed → (r.cfg = s.regs.cfg ∨ ∃ v, r.cfg = cfgStored v) → HostMove s (s.setRegs r)
  | writeIn (a : Nat) (b : Byte) : ¬(s.busy = true ∧ a < s.lat.ilen.toNat) → HostMove s (s.setInp (s.inp.write a b))
  | read (rdata : Word) (free : Nat) : HostMove s ((s.setRdata rdata).setFree free)

theorem HostMove.nothing (s : State) : HostMove s s := .read s.rdata s.free

theorem HostMove.of_setRdata (rdata : Word) (s : State) : HostMove s (s.setRdata rdata) := .read rdata s.free

theorem HostMove.of_start {op : Op} (h : Machine.start op s = .next t) : HostMove s t := by
  obtain ⟨idle, -, rfl⟩ := start_next h
  exact .start op idle

theorem HostMove.of_command {v : Byte} (h : exec (decodeCmd v) s = .next t) : HostMove s t := by
  by_cases starts : v = 0x81#8 ∨ v = 0x82#8
  · obtain ⟨op, runs⟩ := exec_decodeCmd_start starts
    exact .of_start ((runs s).symm.trans h)
  · obtain ⟨notDecode, notEncode⟩ := not_or.mp starts
    obtain noStart | start := Nat.lt_or_ge v.toNat 128
    · rw [decodeCmd_of_startBit_clear noStart, exec_cmdNop] at h
      exact Host.Outcome.next.inj h ▸ .nothing s
    · rw [decodeCmd_of_reserved start notDecode notEncode, exec_cmdReserved] at h
      cases h

theorem HostMove.of_readWritable (written : Bool) (w : Nat) (v : Word) (s : State) :
    HostMove s (readWritable written w v s) := by
  cases written
  · exact .read _ _
  · exact .read v s.free

theorem HostMove.of_readOut {a : Nat} (h : hostReadOut a s = .next t) : HostMove s t := by
  unfold hostReadOut at h
  split_ifs at h
  · cases h
    exact .of_setRdata ..
  · cases h
    exact .read _ _

theorem HostMove.of_writeIn {a : Nat} {b : Byte} (h : hostWriteIn a b s = .next t) : HostMove s t := by
  unfold hostWriteIn at h
  split_ifs at h with input
  cases h
  exact .writeIn a b input

/-- Every access but a turn is one of the moves. -/
theorem hostMove_of_access {x : HostAccess} (notIdle : x ≠ .idle) (h : hostAccess x s = .next t) : HostMove s t := by
  cases x
  case writeCmd => exact .of_command h
  case writeIn => exact .of_writeIn h
  case readOut => exact .of_readOut h
  case idle => exact absurd rfl notIdle
  all_goals cases h
  case writeCfg v => exact .writeReg _ rfl rfl rfl (.inr ⟨v, rfl⟩)
  case writeWidth | writeHeight | writeInLen => exact .writeReg _ rfl rfl rfl (.inl rfl)
  case writeStatus | writeOutLen | writeInConsumed => exact .nothing s
  case readCfg | readWidth | readHeight | readInLen => exact .of_readWritable ..
  case readStatus | readOutLen | readInConsumed => exact .of_setRdata ..
  case reset => exact .reset

/-- What a step of the block does when it completes, phase by phase (R41). -/
inductive BlockMove (s : State) : State → Prop
  | wait : s.phase = .idle → BlockMove s s
  | aborted (x : Cause) (unp : UnpRegs) : s.phase ≠ .idle → BlockMove s (abortState x (s.setUnp unp))
  | passed : s.phase = .check → s.lat.op = .decode → mcsLegal s.lat.m.toNat = true → dimsBad s.lat = false →
      beyondCapacity s (pixelCount s.lat) = false → BlockMove s (checked .deframe s)
  | opened : s.phase = .check → s.lat.op = .encode → mcsLegal s.lat.m.toNat = true → dimsBad s.lat = false →
      s.lat.ilen.toNat = pixelCount s.lat → beyondCapacity s (framedBound (pixelCount s.lat)) = false →
      indexBad s = false → BlockMove s (opened (checked .encode s))
  | deframed {t : State} : s.phase = .deframe → deframe s = .ok t → BlockMove s (decoderInit (t.setPhase .lzwdec))
  | control (dec : DecRegs) : s.phase = .lzwdec → BlockMove s ((advanced s s.decWidth).setDec dec)
  | data (c : Code) (q : Seq) (stk : Memory 8) : s.phase = .lzwdec → (s.stk.wf → stk.wf) →
      BlockMove s (emitSeq c q ((advanced s s.decWidth).setStk stk))
  | decoded : s.phase = .lzwdec → s.dec.dstate = .done → BlockMove s (s.setPhase .finish)
  | extended (k : Nat) : s.phase = .encode → s.enc.ipos.toNat < s.lat.n →
      lookup s (s.inp.read s.enc.ipos.toNat) = some k → BlockMove s (nextIndex (setCur (narrow 12 k) s))
  | missed : s.phase = .encode → s.enc.ipos.toNat < s.lat.n →
      lookup s (s.inp.read s.enc.ipos.toNat) = none → BlockMove s (nextIndex (miss (s.inp.read s.enc.ipos.toNat) s))
  | encoded : s.phase = .encode → s.lat.n ≤ s.enc.ipos.toNat →
      BlockMove s ((emitCode (s.lat.endCode.setWidth 12) (finalMatch s)).setPhase .flush)
  | flushed : s.phase = .flush → BlockMove s ((flushOut s).setPhase .finish)
  | published (outLen inConsumed : Word) : s.phase = .finish → BlockMove s (publish outLen inConsumed s)

theorem BlockMove.of_checkDecode (check : s.phase = .check) (op : s.lat.op = .decode)
    (h : checkDecode s = .next t) : BlockMove s t := by
  have busy : s.phase ≠ .idle := by simp [check]
  obtain rfl | rfl | ⟨mcs, dims, within, rfl⟩ := checkDecode_next h
  · exact .aborted .mcsRange s.unp busy
  · exact .aborted .dimNonpositive s.unp busy
  · exact .passed check op mcs dims within

theorem BlockMove.of_checkEncode (check : s.phase = .check) (op : s.lat.op = .encode)
    (h : checkEncode s = .next u) (h' : (if u.phase = .encode then openEncode u else .next u) = .next t) :
    BlockMove s t := by
  obtain ⟨x, rfl⟩ | ⟨mcs, dims, length, within, index, rfl⟩ := checkEncode_next h
  · cases h'
    exact .aborted x s.unp (by simp [check])
  · cases h'
    exact .opened check op mcs dims length within index

theorem BlockMove.of_deframe (h : s.phase = .deframe) (runs : deframePhase s = .next t) : BlockMove s t := by
  unfold deframePhase at runs
  obtain ⟨u, answer, rest⟩ := andThen_next runs
  cases deframed : deframe s with
  | ok v =>
    rw [exec_deframe_of_ok deframed] at answer
    cases answer
    rw [if_pos ((sameRun_deframe deframed).phase.trans h)] at rest
    cases rest
    exact .deframed h deframed
  | error x =>
    rw [exec_deframe_of_error deframed] at answer
    cases answer
    cases rest
    exact .aborted x s.unp (by simp [h])

theorem execDict_next {c : Code} (runs : execDict c s = .next t) :
    ∃ q stk, (s.stk.wf → stk.wf) ∧ t = emitSeq c q (s.setStk stk) := by
  unfold execDict at runs
  split at runs
  case h_1 q u answer =>
    cases runs
    obtain ⟨frame, wf⟩ := resolve_frame answer
    exact ⟨q, u.stk, wf, congrArg (emitSeq c q) frame⟩
  case h_2 => cases runs

theorem execDefer_next (runs : execDefer s = .next t) :
    ∃ c q stk, (s.stk.wf → stk.wf) ∧ t = emitSeq c q (s.setStk stk) := by
  unfold execDefer at runs
  split at runs
  case h_1 p u answer =>
    cases runs
    obtain ⟨frame, wf⟩ := resolve_frame answer
    exact ⟨_, _, u.stk, wf, congrArg (emitSeq _ p.deferred) frame⟩
  case h_2 => cases runs

theorem BlockMove.of_decstep (h : s.phase = .lzwdec) (runs : exec .decstep s = .next t) : BlockMove s t := by
  have busy : s.phase ≠ .idle := by simp [h]
  obtain short | enough := Nat.lt_or_ge (8 * s.unp.plen.toNat) (s.unp.bitpos.toNat + s.decWidth)
  · rw [exec_decstep_of_short short] at runs
    cases runs
    exact .aborted .prematureEnd s.unp busy
  · rw [exec_decstep_of_enough enough] at runs
    generalize classify s.decCtx (decCode s) = k at runs
    cases k with
    | clear | endCode =>
      cases runs
      exact .control _ h
    | badcode c =>
      cases runs
      exact .aborted _ _ busy
    | lit b =>
      cases runs
      exact .data _ _ s.stk h id
    | dict c =>
      obtain ⟨q, stk, wf, rfl⟩ := execDict_next runs
      exact .data _ _ stk h wf
    | defer =>
      obtain ⟨c, q, stk, wf, rfl⟩ := execDefer_next runs
      exact .data _ _ stk h wf

theorem BlockMove.of_encode (h : s.phase = .encode) (runs : blockStep s = .next t) : BlockMove s t := by
  obtain left | ended := Nat.lt_or_ge s.enc.ipos.toNat s.lat.n
  · rw [blockStep_of_index h left] at runs
    cases found : lookup s (s.inp.read s.enc.ipos.toNat) with
    | some k =>
      rw [exec_encStep_of_hit left found] at runs
      cases runs
      exact .extended k h left found
    | none =>
      rw [exec_encStep_of_miss left found] at runs
      cases runs
      exact .missed h left found
  · rw [blockStep_of_encoded h ended] at runs
    cases runs
    exact .encoded h ended

theorem BlockMove.of_finish (h : s.phase = .finish) (runs : finishPhase s = .next t) : BlockMove s t := by
  unfold finishPhase at runs
  cases op : s.lat.op with
  | encode =>
    rw [op] at runs
    cases runs
    exact .published _ _ h
  | decode =>
    rw [op] at runs
    change execFinishDecode s = .next t at runs
    unfold execFinishDecode at runs
    split_ifs at runs
    · cases runs
      exact .published _ _ h
    · cases runs
      exact .aborted .decodeCount s.unp (by simp [h])

/-- Every step of the block that completes is one of the moves. -/
theorem blockMove_of_blockStep (runs : blockStep s = .next t) : BlockMove s t := by
  cases h : s.phase with
  | idle =>
    rw [blockStep, h] at runs
    cases runs
    exact .wait h
  | check =>
    cases op : s.lat.op with
    | decode => exact .of_checkDecode h op ((blockStep_of_checkDecode h op).symm.trans runs)
    | encode =>
      obtain ⟨u, checks, opens⟩ := andThen_next ((blockStep_of_checkEncode h op).symm.trans runs)
      exact .of_checkEncode h op checks opens
  | deframe => exact .of_deframe h ((blockStep_of_deframe h).symm.trans runs)
  | lzwdec =>
    by_cases done : s.dec.dstate = .done
    · rw [blockStep_of_decoded h done] at runs
      cases runs
      exact .decoded h done
    · exact .of_decstep h ((blockStep_of_lzwdec h done).symm.trans runs)
  | encode => exact .of_encode h runs
  | flush =>
    rw [blockStep_of_flush h] at runs
    cases runs
    exact .flushed h
  | finish => exact .of_finish h ((blockStep_of_finish h).symm.trans runs)

/-- `P` says nothing of the host's pending accesses and of what has left over DIAG. -/
def BlindToQueue (P : State → Prop) : Prop :=
  ∀ s host diag, P s → P { s with host := host, diag := diag }

theorem BlindToQueue.writeDiag {P : State → Prop} (blind : BlindToQueue P) (h : P s) : P (writeDiag s) := by
  rw [writeDiag_frame]
  exact blind s s.host _ h

/-- A step is a move of the host or a step of the block, so what both keep every step keeps. -/
theorem step_of_moves {P Q : State → Prop} (blind : BlindToQueue P)
    (hostMove : ∀ s t, P s → HostMove s t → Q t) (block : ∀ s t, P s → blockStep s = .next t → Q t) (h : P s)
    (runs : step s = .next t) : Q t := by
  rw [step, machineStep] at runs
  split at runs
  case h_1 => exact block _ _ (blind.writeDiag h) runs
  case h_2 x rest _ =>
    have h' : P (s.setHost rest) := blind s rest s.diag h
    by_cases turn : x = .idle
    · rw [turn] at runs
      exact block _ _ (blind.writeDiag h') runs
    · exact hostMove _ _ h' (hostMove_of_access turn runs)

end Sys2Proof.Machine

/-! What the host can rely on (R32, R35 to R37), kept move by move. -/

namespace Sys2Proof.Machine

variable {s t : State}

/-! ### The canonical form of the memories -/

/-- Every memory is in canonical form. -/
structure MemoriesWf (s : State) : Prop where
  inp : s.inp.wf
  out : s.out.wf
  pay : s.pay.wf
  stk : s.stk.wf
  pre : s.prefixMem.wf
  suf : s.suffixMem.wf

theorem MemoriesWf.emitCode (c : Code) (wf : MemoriesWf s) : MemoriesWf (emitCode c s) := by
  rw [emitCode_frame]
  exact { wf with out := writeCode_out_wf c _ wf.out }

theorem MemoriesWf.setEnc (enc : EncRegs) (wf : MemoriesWf s) : MemoriesWf (s.setEnc enc) := { wf with }

theorem MemoriesWf.encoderInit (wf : MemoriesWf s) : MemoriesWf (encoderInit s) := { wf with }

theorem MemoriesWf.sendData (c : Code) (wf : MemoriesWf s) : MemoriesWf (sendData c s) := (wf.emitCode c).setEnc _

theorem MemoriesWf.insertE (p : Code) (c : Byte) (wf : MemoriesWf s) : MemoriesWf (insertE p c s) := by
  have stored : MemoriesWf (storeEntry p c s) :=
    { wf with pre := Memory.write_wf wf.pre _ _, suf := Memory.write_wf wf.suf _ _ }
  obtain below | full := Nat.lt_or_ge s.enc.esize.toNat 4096
  · rw [insertE_of_below p c below]
    split_ifs
    · exact (stored.emitCode _).setEnc _
    · exact stored
  · rwa [insertE_of_full p c full]

theorem MemoriesWf.flushOut (wf : MemoriesWf s) : MemoriesWf (flushOut s) := by
  rw [flushOut_frame]
  exact { wf with out := flushOut_out_wf wf.out }

theorem MemoriesWf.deframe (wf : MemoriesWf s) (h : deframe s = .ok t) : MemoriesWf t := by
  have pay : t.pay.wf := by
    unfold Machine.deframe at h
    split at h
    case h_1 u loop =>
      cases h
      have loopWf := deframeLoop_pay_wf (s := s.setUnp { s.unp with fpos := 0, plen := 0 }) wf.pay loop
      exact loopWf
    case h_2 => cases h
  obtain ⟨frame, -⟩ := deframe_frame h
  rw [frame]
  exact { wf with pay }

theorem MemoriesWf.emitSeq (c : Code) (q : Seq) (wf : MemoriesWf s) : MemoriesWf (emitSeq c q s) := by
  have out : (Machine.emitSeq c q s).out.wf := by
    rw [Machine.emitSeq, insertEntry_frame]
    exact outputSyms_out_wf _ wf.out
  have dict : (Machine.emitSeq c q s).prefixMem.wf ∧ (Machine.emitSeq c q s).suffixMem.wf := by
    refine insertEntry_wf c q.first ?_ ?_ <;> rw [outputSyms_frame]
    · exact wf.pre
    · exact wf.suf
  rw [emitSeq_frame]
  exact { wf with out, pre := dict.1, suf := dict.2 }

theorem memoriesWf_abortState {x : Cause} (inp : s.inp.wf) : MemoriesWf (abortState x s) :=
  ⟨inp, Memory.unspecified_wf _, Memory.unspecified_wf _, Memory.unspecified_wf _, Memory.unspecified_wf _,
    Memory.unspecified_wf _⟩

/-! ### HostInv -/

theorem HostInv.memories (inv : HostInv s) : MemoriesWf s := ⟨inv.inp, inv.out, inv.pay, inv.stk, inv.pre, inv.suf⟩

theorem HostInv.of_memories (status : statusLegal s.regs.status) (busy : s.busy = true ↔ s.phase ≠ .idle)
    (results : s.regs.status ≠ statusSuccess → s.regs.outLen = 0 ∧ s.regs.inConsumed = 0)
    (cfg : s.regs.cfg &&& 0xC0#8 = 0) (wf : MemoriesWf s) : HostInv s :=
  { wf with status, busy, results, cfg }

/-- While a transaction runs, the host registers and the phase stay. -/
theorem HostInv.of_same (inv : HostInv s) (same : SameRun s t) (wf : MemoriesWf t) : HostInv t := by
  refine .of_memories ?_ ?_ ?_ ?_ wf
  · exact same.regs ▸ inv.status
  · rw [State.busy, same.regs, same.phase]
    exact inv.busy
  · exact same.regs ▸ inv.results
  · exact same.regs ▸ inv.cfg

theorem HostInv.setLat (inv : HostInv s) (lat : Latched) : HostInv (s.setLat lat) := { inv with }

theorem HostInv.setPhase {p : Phase} (inv : HostInv s) (before : s.phase ≠ .idle) (after : p ≠ .idle) :
    HostInv (s.setPhase p) :=
  { inv with busy := iff_of_true (inv.busy.mpr before) after }

/-- R334: ABORT reports its cause and clears the results. -/
theorem HostInv.abort (inv : HostInv s) (x : Cause) (unp : UnpRegs) : HostInv (abortState x (s.setUnp unp)) :=
  .of_memories (.inr (.inr (.inr ⟨x, rfl⟩)))
    (iff_of_false (ne_true_of_eq_false (statusBusy_aborted x)) (not_not.mpr rfl)) (fun _ => ⟨rfl, rfl⟩) inv.cfg
    (memoriesWf_abortState inv.inp)

theorem cfgStored_reserved (v : Byte) : cfgStored v &&& 0xC0#8 = 0 := by
  rw [cfgStored, BitVec.and_assoc]
  exact BitVec.and_zero

theorem HostInv.hostMove (inv : HostInv s) (move : HostMove s t) : HostInv t := by
  have wf := inv.memories
  cases move with
  | start op _ =>
    exact .of_memories (.inr (.inl rfl)) (iff_of_true (started_busy op s) (show Phase.check ≠ .idle by decide))
      (fun _ => ⟨rfl, rfl⟩) inv.cfg { wf with }
  | reset => exact .resetWith ..
  | writeReg r status outLen inConsumed cfg =>
    have busy : (s.setRegs r).busy = s.busy := congrArg statusBusy status
    refine .of_memories (s := s.setRegs r) (status ▸ inv.status) (busy ▸ inv.busy) (fun h => ?_) ?_ { wf with }
    · exact outLen.symm ▸ inConsumed.symm ▸ inv.results (status ▸ h)
    · obtain same | ⟨v, stored⟩ := cfg
      · exact same ▸ inv.cfg
      · exact stored ▸ cfgStored_reserved v
  | writeIn a b _ =>
    exact .of_memories inv.status inv.busy inv.results inv.cfg { wf with inp := Memory.write_wf wf.inp a b }
  | read => exact { inv with }

/-- R307, R316: a success publishes the results and frees the block. -/
theorem HostInv.publish (inv : HostInv s) (outLen inConsumed : Word) : HostInv (publish outLen inConsumed s) :=
  .of_memories (.inr (.inr (.inl rfl)))
    (iff_of_false (ne_true_of_eq_false statusBusy_success) (not_not.mpr rfl)) (absurd rfl) inv.cfg
    { inv.memories with }

theorem HostInv.blockMove (inv : HostInv s) (move : BlockMove s t) : HostInv t := by
  have wf := inv.memories
  cases move with
  | wait => exact inv
  | aborted x unp => exact inv.abort x unp
  | published outLen inConsumed => exact inv.publish outLen inConsumed
  | passed check => exact (inv.setLat _).setPhase (by simp [check]) (by simp)
  | opened check =>
    have passed : HostInv (checked .encode s) := (inv.setLat _).setPhase (by simp [check]) (by simp)
    exact passed.of_same (sameRun_opened _) ((passed.memories.encoderInit.emitCode _).setEnc _)
  | @deframed u h deframed =>
    have separated := inv.of_same (sameRun_deframe deframed) (wf.deframe deframed)
    have begun : HostInv (u.setPhase .lzwdec) :=
      separated.setPhase (by simp [(sameRun_deframe deframed).phase, h]) (by simp)
    exact { begun with }
  | control dec => exact inv.of_same (sameRun_control dec _ s) { wf with }
  | data c q stk _ stkWf =>
    have resolved : MemoriesWf ((advanced s s.decWidth).setStk stk) := { wf with stk := stkWf wf.stk }
    exact inv.of_same (sameRun_data c q stk _ s) (resolved.emitSeq c q)
  | decoded h => exact inv.setPhase (by simp [h]) (by simp)
  | extended k => exact inv.of_same (sameRun_extended k s) { wf with }
  | missed => exact inv.of_same (sameRun_missed _ s) ((((wf.sendData _).insertE _ _).setEnc _).setEnc _)
  | encoded h =>
    exact (inv.of_same (sameRun_encoded s) ((wf.sendData _).emitCode _)).setPhase
      (by simp [(sameRun_encoded s).phase, h]) (by simp)
  | flushed h =>
    exact (inv.of_same (sameRun_flushOut s) wf.flushOut).setPhase (by simp [(sameRun_flushOut s).phase, h]) (by simp)

/-- Settles O50: by the moves of the host and of the block. -/
theorem hostInvKept : Obligations.HostInvKept := fun _ _ inv =>
  step_of_moves (fun _ _ _ inv => { inv with }) (fun _ _ inv => inv.hostMove)
    (fun _ _ inv runs => inv.blockMove (blockMove_of_blockStep runs)) inv

end Sys2Proof.Machine

/-! What CHECK establishes (R42, R86, R340 to R342), kept move by move until the transaction ends. -/

namespace Sys2Proof.Machine

variable {s t : State}

/-- The latch, the parameters and the phase are all that CHECK's findings are about. -/
theorem RunInv.of_same (run : RunInv s) (same : SameRun s t) : RunInv t := by
  obtain ⟨latched, checked, capacity, decoding, encoding⟩ := run
  rw [← same.phase, ← same.lat] at latched decoding encoding
  rw [← same.phase, ← same.lat, ← same.params] at checked capacity
  exact ⟨latched, checked, capacity, decoding, encoding⟩

/-- Past CHECK the operation has to fit the phase that follows. -/
theorem RunInv.setPhase {p : Phase} (run : RunInv s) (busy : s.phase ≠ .idle) (passed : s.phase ≠ .check)
    (decoding : p = .deframe ∨ p = .lzwdec → s.lat.op = .decode)
    (encoding : p = .encode ∨ p = .flush → s.lat.op = .encode) : RunInv (s.setPhase p) :=
  ⟨fun _ => run.latched busy, fun _ _ => run.checked busy passed, fun _ _ => run.capacity busy passed, decoding,
    encoding⟩

theorem RunInv.hostMove (run : RunInv s) (move : HostMove s t) : RunInv t := by
  cases move with
  | start op => exact .of_check rfl (started_latched op s)
  | reset => exact .of_idle rfl
  | writeReg | writeIn | read => exact { run with }

/-- R306, R314: what a passed CHECK has found, for the operation the next phase is of. -/
theorem RunInv.of_passed {p : Phase} {need : Nat} (run : RunInv s) (check : s.phase = .check)
    (mcs : mcsLegal s.lat.m.toNat = true) (dims : dimsBad s.lat = false)
    (within : beyondCapacity s need = false)
    (capacity : need ≤ s.params.outCap → (s.lat.op = .decode → pixelCount s.lat ≤ s.params.outCap) ∧
      (s.lat.op = .encode → framedBound (pixelCount s.lat) ≤ s.params.outCap ∧ s.lat.ilen.toNat = pixelCount s.lat))
    (decoding : p = .deframe ∨ p = .lzwdec → s.lat.op = .decode)
    (encoding : p = .encode ∨ p = .flush → s.lat.op = .encode) : RunInv (Machine.checked p s) := by
  obtain ⟨pixels, ilen, out⟩ := overCapacity_false.mp within
  have latched := run.latched (by simp [check])
  exact ⟨fun _ => latched, fun _ _ => ⟨mcsLegal_iff.mp mcs, dimsBad_eq_false_iff.mp dims, rfl, pixels, ilen⟩,
    fun _ _ => capacity out, decoding, encoding⟩

theorem RunInv.blockMove (run : RunInv s) (move : BlockMove s t) : RunInv t := by
  cases move with
  | wait => exact run
  | aborted | published => exact .of_idle rfl
  | passed check op mcs dims within =>
    exact run.of_passed check mcs dims within (fun out => ⟨fun _ => out, fun op' => by simp [op] at op'⟩) (fun _ => op)
      (by simp)
  | opened check op mcs dims length within _ =>
    have passed := run.of_passed (p := .encode) check mcs dims within
      (fun out => ⟨fun op' => by simp [op] at op', fun _ => ⟨out, length⟩⟩) (by simp) (fun _ => op)
    exact passed.of_same (sameRun_opened _)
  | @deframed u h deframed =>
    have separated := run.of_same (sameRun_deframe deframed)
    have h' : u.phase = .deframe := (sameRun_deframe deframed).phase.trans h
    have begun : RunInv (u.setPhase .lzwdec) :=
      separated.setPhase (by simp [h']) (by simp [h']) (fun _ => separated.decoding (.inl h')) (by simp)
    exact { begun with }
  | control dec => exact run.of_same (sameRun_control dec _ s)
  | data c q stk => exact run.of_same (sameRun_data c q stk _ s)
  | decoded h => exact run.setPhase (by simp [h]) (by simp [h]) (by simp) (by simp)
  | extended k => exact run.of_same (sameRun_extended k s)
  | missed => exact run.of_same (sameRun_missed _ s)
  | encoded h =>
    have ended := run.of_same (sameRun_encoded s)
    have h' := (sameRun_encoded s).phase.trans h
    exact ended.setPhase (by simp [h']) (by simp [h']) (by simp) (fun _ => ended.encoding (.inl h'))
  | flushed h =>
    have framed := run.of_same (sameRun_flushOut s)
    have h' := (sameRun_flushOut s).phase.trans h
    exact framed.setPhase (by simp [h']) (by simp [h']) (by simp) (by simp)

/-- Settles O51: by the moves of the host and of the block. -/
theorem runInvKept : Obligations.RunInvKept := fun _ _ run =>
  step_of_moves (fun _ _ _ run => { run with }) (fun _ _ run => run.hostMove)
    (fun _ _ run runs => run.blockMove (blockMove_of_blockStep runs)) run

end Sys2Proof.Machine

/-! The decoder between two codes (R43, R44, R46, R48): its dictionary stays sound, and no run meets a broken chain. -/

namespace Sys2Proof.Machine

variable {s t u : State}

/-- R43: a dictionary of literals only is sound. -/
theorem DictOk.empty {m : Nat} (small : m ≤ 8) (pre : Memory 12) (suf : Memory 8) : DictOk m (2 ^ m + 2) pre suf := by
  have literals := Nat.pow_le_pow_right Nat.two_pos small
  exact ⟨le_rfl, by omega, fun k first below => absurd first below.not_ge⟩

theorem firstFree_setWidth_toNat (latch : LatchOk s) :
    (s.lat.firstFree.setWidth 13).toNat = 2 ^ s.lat.m.toNat + 2 :=
  (BitVec.toNat_setWidth_of_le (by decide)).trans latch.firstFree

/-- R180, R181: a decoder that starts a span is between two codes. -/
theorem DecInv.of_span_start (latch : LatchOk s) (size : s.dec.d = s.lat.firstFree.setWidth 13)
    (noPrev : s.dec.prevValid = false) (notReading : s.dec.dstate ≠ .reading)
    (cursor : s.unp.bitpos.toNat ≤ 8 * s.unp.plen.toNat) : DecInv s where
  dict _ := by
    rw [size, firstFree_setWidth_toNat latch]
    exact .empty latch.small ..
  prev _ valid := absurd valid (ne_true_of_eq_false noPrev)
  reading _ _ := iff_of_false (ne_true_of_eq_false noPrev) notReading
  cursor _ := cursor

theorem DecInv.hostMove (inv : DecInv s) (move : HostMove s t) : DecInv t := by
  cases move with
  | start op => exact .of_not_lzwdec (by simp)
  | reset => exact .of_not_lzwdec (show Phase.idle ≠ .lzwdec by decide)
  | writeReg | writeIn | read => exact { inv with }

/-- R189: a code read leaves the decoder between two codes again. -/
theorem CodeStep.decInv {k : CodeClass} (step : CodeStep s k t) (ready : DecReady s)
    (cursor : s.unp.bitpos.toNat ≤ 8 * s.unp.plen.toNat) : DecInv t := by
  cases step with
  | clear =>
    obtain ⟨small, clear, ended, firstFree⟩ := ready.latch
    exact .of_span_start ⟨small, clear, ended, firstFree⟩ rfl rfl (show DState.cleared ≠ .reading by decide) cursor
  | ended => exact ⟨fun _ => ready.dict, fun _ => ready.prev, fun _ h => absurd rfl h, fun _ => cursor⟩
  | data _ _ step =>
    have after := step.ready ready
    obtain ⟨-, -, inserted, frame⟩ := step
    refine ⟨fun _ => after.dict, fun _ => after.prev, fun _ _ => iff_of_true inserted.valid inserted.reading,
      fun _ => ?_⟩
    rw [frame]
    exact cursor
  | badcode => exact .of_not_lzwdec (by simp)

/-- R154, R180: DEFRAME and DECODER_INIT begin phase LZWDEC at payload bit 0. -/
theorem DecInv.of_deframe (run : RunInv s) (h : s.phase = .deframe) (deframed : deframe s = .ok u) :
    DecInv (decoderInit (u.setPhase .lzwdec)) := by
  have same := sameRun_deframe deframed
  obtain ⟨small, clear, ended, firstFree⟩ :=
    (run.of_same same).latchOk (by simp [same.phase, h]) (by simp [same.phase, h])
  obtain ⟨-, bitpos⟩ := deframe_frame deframed
  refine .of_span_start ⟨small, clear, ended, firstFree⟩ rfl rfl (show DState.init ≠ .reading by decide) ?_
  show u.unp.bitpos.toNat ≤ _
  rw [bitpos]
  exact Nat.zero_le _

theorem DecInv.blockStep (run : RunInv s) (inv : DecInv s) (runs : blockStep s = .next t) : DecInv t := by
  by_cases h : s.phase = .lzwdec
  · by_cases done : s.dec.dstate = .done
    · rw [blockStep_of_decoded h done] at runs
      cases runs
      exact .of_not_lzwdec (by simp)
    · rw [blockStep_of_lzwdec h done] at runs
      obtain short | enough := Nat.lt_or_ge (8 * s.unp.plen.toNat) (s.unp.bitpos.toNat + s.decWidth)
      · rw [exec_decstep_of_short short] at runs
        cases runs
        exact .of_not_lzwdec (by simp)
      · obtain ⟨_, runs', step⟩ := exec_decstep_codeStep run inv h enough
        obtain rfl := Host.Outcome.next.inj (runs.symm.trans runs')
        exact step.decInv (advanced_ready (inv.ready run h)) ((advanced_bitpos enough).trans_le enough)
  · cases blockMove_of_blockStep runs with
    | wait => exact inv
    | aborted | published | passed | decoded | encoded | flushed => exact .of_not_lzwdec (by simp [publish])
    | opened => exact .of_not_lzwdec (by simp [(sameRun_opened _).phase])
    | deframed h deframed => exact .of_deframe run h deframed
    | control _ h' | data _ _ _ h' => exact absurd h' h
    | extended k h' => exact .of_not_lzwdec (by simp [(sameRun_extended k s).phase, h'])
    | missed h' => exact .of_not_lzwdec (by simp [(sameRun_missed _ s).phase, h'])

/-! ### No run meets a broken chain (R196) -/

theorem next_ne_fault (t : State) (r : Fault) : (.next t : Host.Outcome State Fault Refusal) ≠ .fault r := by simp

theorem refused_ne_fault (r' : Refusal) (r : Fault) : (.refused r' : Host.Outcome State Fault Refusal) ≠ .fault r := by
  simp

theorem exec_command_ne_fault (v : Byte) (s : State) (r : Fault) : exec (decodeCmd v) s ≠ .fault r := by
  by_cases starts : v = 0x81#8 ∨ v = 0x82#8
  · obtain ⟨op, runs⟩ := exec_decodeCmd_start starts
    rw [runs, start]
    split_ifs <;> simp
  · obtain ⟨notDecode, notEncode⟩ := not_or.mp starts
    obtain noStart | start := Nat.lt_or_ge v.toNat 128
    · simp [decodeCmd_of_startBit_clear noStart, exec_cmdNop]
    · simp [decodeCmd_of_reserved start notDecode notEncode, exec_cmdReserved]

/-- The host's accesses fault over addresses only (log 8). -/
theorem hostAccess_ne_brokenDictionary {x : HostAccess} (notIdle : x ≠ .idle) (s : State) :
    hostAccess x s ≠ .fault .brokenDictionary := by
  cases x
  case writeCmd v => exact exec_command_ne_fault v s _
  case writeIn a b =>
    show hostWriteIn a b s ≠ _
    unfold hostWriteIn
    split_ifs <;> simp
  case readOut a =>
    show hostReadOut a s ≠ _
    unfold hostReadOut
    split_ifs <;> simp
  case idle => exact absurd rfl notIdle
  case writeOut | readCmd => exact refused_ne_fault _ _
  all_goals exact next_ne_fault _ _

theorem checkDecode_ne_fault (s : State) (r : Fault) : checkDecode s ≠ .fault r := by
  unfold checkDecode
  split_ifs <;> simp

theorem checkEncode_ne_fault (s : State) (r : Fault) : checkEncode s ≠ .fault r := by
  unfold checkEncode
  split_ifs <;> simp

theorem checkPhase_ne_fault (s : State) (r : Fault) : checkPhase s ≠ .fault r := by
  unfold checkPhase
  split
  · exact checkDecode_ne_fault s r
  · cases answer : checkEncode s with
    | next u =>
      rw [andThen_next_eq]
      split_ifs
      · simp [openEncode_eq]
      · simp
    | fault r' => exact absurd answer (checkEncode_ne_fault s r')
    | refused => simp [andThen]

theorem deframePhase_ne_fault (s : State) (r : Fault) : deframePhase s ≠ .fault r := by
  unfold deframePhase
  cases deframed : deframe s with
  | ok u =>
    rw [exec_deframe_of_ok deframed, andThen_next_eq]
    split_ifs <;> exact next_ne_fault _ _
  | error x =>
    rw [exec_deframe_of_error deframed]
    exact next_ne_fault _ _

theorem finishPhase_ne_fault (s : State) (r : Fault) : finishPhase s ≠ .fault r := by
  unfold finishPhase
  split
  · show execFinishDecode s ≠ _
    unfold execFinishDecode
    split_ifs <;> simp
  · exact next_ne_fault _ _

/-- Only DECSTEP resolves a code, and in a run it finds its sequence. -/
theorem blockStep_ne_fault (run : RunInv s) (inv : DecInv s) (r : Fault) : blockStep s ≠ .fault r := by
  cases h : s.phase with
  | idle =>
    rw [blockStep, h]
    exact next_ne_fault _ _
  | check =>
    rw [blockStep, h]
    exact checkPhase_ne_fault s r
  | deframe => exact blockStep_of_deframe h ▸ deframePhase_ne_fault s r
  | lzwdec =>
    by_cases done : s.dec.dstate = .done
    · simp [blockStep_of_decoded h done]
    · rw [blockStep_of_lzwdec h done]
      obtain short | enough := Nat.lt_or_ge (8 * s.unp.plen.toNat) (s.unp.bitpos.toNat + s.decWidth)
      · rw [exec_decstep_of_short short]
        exact next_ne_fault _ _
      · obtain ⟨t, runs, -⟩ := exec_decstep_codeStep run inv h enough
        simp [runs]
  | encode =>
    obtain left | ended := Nat.lt_or_ge s.enc.ipos.toNat s.lat.n
    · rw [blockStep_of_index h left]
      exact next_ne_fault _ _
    · simp [blockStep_of_encoded h ended]
  | flush => simp [blockStep_of_flush h]
  | finish => exact blockStep_of_finish h ▸ finishPhase_ne_fault s r

/-- What the decoder's invariant needs of a state: the two say nothing of the host's queue and of DIAG. -/
theorem blind_run_dec : BlindToQueue fun s => RunInv s ∧ DecInv s := fun _ _ _ ⟨run, inv⟩ =>
  ⟨{ run with }, { inv with }⟩

theorem step_ne_brokenDictionary (run : RunInv s) (inv : DecInv s) : step s ≠ .fault .brokenDictionary := by
  have turn {s : State} (h : RunInv s ∧ DecInv s) : blockTurn s ≠ .fault .brokenDictionary := by
    obtain ⟨run, inv⟩ := blind_run_dec.writeDiag h
    exact blockStep_ne_fault run inv _
  rw [step, machineStep]
  split
  · exact turn ⟨run, inv⟩
  case h_2 x rest _ =>
    by_cases idle : x = .idle
    · rw [idle]
      exact turn (blind_run_dec s rest s.diag ⟨run, inv⟩)
    · exact hostAccess_ne_brokenDictionary idle _

/-- Settles O52: the host leaves the decoder alone, and a code read leaves it between two codes. -/
theorem decInvKept : Obligations.DecInvKept := fun _ run inv =>
  ⟨fun _ => step_of_moves blind_run_dec (fun _ _ ⟨_, inv⟩ => inv.hostMove) (fun _ _ ⟨run, inv⟩ => inv.blockStep run)
    ⟨run, inv⟩, step_ne_brokenDictionary run inv⟩

end Sys2Proof.Machine

/-! The encoder between two indices (R43, R44, R49, R50, R233, R247, R254): its dictionary, sizes and packer
stay sound. -/

namespace Sys2Proof.Machine

variable {s t u : State}

/-! ### What MISS leaves in the dictionary and the sizes (R233, R239, R240) -/

theorem sendData_frame (c : Code) (s : State) : sendData c s = { s with
    out := (sendData c s).out, pk := (sendData c s).pk
    enc := { s.enc with dsize := (dataSent s).enc.dsize, firstd := false } } := by
  unfold sendData
  rw [emitCode_frame]
  rfl

/-- R233: DSIZE counts as the transaction level's does. -/
theorem dataSent_dsize_toNat (s : State) :
    (dataSent s).enc.dsize.toNat = txDataSent s.enc.dsize.toNat s.enc.firstd := by
  rw [dataSent_dsize, txDataSent]
  split_ifs with counts
  · exact BitVec.toNat_add_of_lt (show s.enc.dsize.toNat + 1 < 2 ^ 13 by omega)
  · rfl

/-- From `s` to `t` the entry `(CUR, c)` was inserted, or filled the dictionary and was followed by a reset, or found it
full (R240, R242, R248). -/
inductive Missed (s t : State) (c : Byte) : Prop
  | inserted : s.enc.esize.toNat < 4096 → (s.lat.nr = false → s.enc.esize.toNat + 1 < 4096) →
      t.enc.esize.toNat = s.enc.esize.toNat + 1 →
      t.enc.dsize.toNat = txDataSent s.enc.dsize.toNat s.enc.firstd → t.enc.firstd = false →
      t.prefixMem = s.prefixMem.write s.enc.esize.toNat s.enc.cur →
      t.suffixMem = s.suffixMem.write s.enc.esize.toNat c → Missed s t c
  | reset : s.enc.esize.toNat + 1 = 4096 → s.lat.nr = false → t.enc.esize.toNat = s.lat.firstFree.toNat →
      t.enc.dsize.toNat = s.lat.firstFree.toNat → t.enc.firstd = true → Missed s t c
  | frozen : 4096 ≤ s.enc.esize.toNat → t.enc.esize = s.enc.esize →
      t.enc.dsize.toNat = txDataSent s.enc.dsize.toNat s.enc.firstd → t.enc.firstd = false →
      t.prefixMem = s.prefixMem → t.suffixMem = s.suffixMem → Missed s t c

/-- INSERT_E on a state that differs from `s` by the data code just sent. -/
theorem missed_insertE {a : State} (c : Byte) (sent : a = { s with
      out := a.out, pk := a.pk, enc := { s.enc with dsize := (dataSent s).enc.dsize, firstd := false } }) :
    Missed s (insertE s.enc.cur c a) c := by
  have esize : a.enc.esize = s.enc.esize := by rw [sent]
  have lat : a.lat = s.lat := by rw [sent]
  have dsize := dataSent_dsize_toNat s
  obtain below | full := Nat.lt_or_ge s.enc.esize.toNat 4096
  · have inserted := insertE_of_below s.enc.cur c (esize ▸ below)
    rw [esize, lat] at inserted
    by_cases resets : s.enc.esize.toNat = 4095 ∧ s.lat.nr = false
    · rw [inserted, if_pos resets]
      obtain ⟨sizeReset, dsizeReset⟩ := clearFull_sizes (storeEntry s.enc.cur c a)
      have firstFree : (storeEntry s.enc.cur c a).lat.firstFree.toNat = s.lat.firstFree.toNat :=
        congrArg (·.firstFree.toNat) lat
      refine .reset (by omega) resets.2 (sizeReset.trans firstFree) (dsizeReset.trans firstFree) ?_
      rw [clearFull_frame]
    · rw [inserted, if_neg resets]
      have grown := storeEntry_esize s.enc.cur c (s := a) (esize ▸ below)
      rw [esize] at grown
      refine .inserted below (fun mode => ?_) grown ?_ ?_ ?_ ?_
      · have : s.enc.esize.toNat ≠ 4095 := fun last => resets ⟨last, mode⟩
        omega
      all_goals rw [sent]
      · exact dsize
      all_goals rfl
  · rw [insertE_of_full _ _ (esize ▸ full)]
    refine .frozen full esize ?_ ?_ ?_ ?_ <;> rw [sent]
    exact dsize

/-- The next match and the next index touch neither the sizes nor the dictionary. -/
theorem Missed.next {c : Byte} (missed : Missed s u c) (cur : Code) : Missed s (nextIndex (setCur cur u)) c := by
  cases missed with
  | inserted room keeps esize dsize firstd pre suf => exact .inserted room keeps esize dsize firstd pre suf
  | reset last mode esize dsize firstd => exact .reset last mode esize dsize firstd
  | frozen full esize dsize firstd pre suf => exact .frozen full esize dsize firstd pre suf

/-- R239: MISS is E_DATA, INSERT_E and the new match. -/
theorem missed_miss (c : Byte) (s : State) : Missed s (nextIndex (miss c s)) c :=
  (missed_insertE c (sendData_frame s.enc.cur s)).next (c.setWidth 12)

theorem Packs.nextIndex {w : Nat} (h : Packs s t w) : Packs s (nextIndex t) w := h.congr ⟨rfl, rfl⟩ ⟨rfl, rfl⟩

theorem Packs.setPhase {w : Nat} (h : Packs s t w) (p : Phase) : Packs s (t.setPhase p) w :=
  h.congr ⟨rfl, rfl⟩ ⟨rfl, rfl⟩

/-! ### The encoder's invariant in phase ENCODE -/

/-- R247: no two entries stand for one PREFIX and SUFFIX. -/
def EntriesUnique (m size : Nat) (pre : Memory 12) (suf : Memory 8) : Prop :=
  ∀ j k, 2 ^ m + 2 ≤ j → j < size → 2 ^ m + 2 ≤ k → k < size → pre.read j = pre.read k → suf.read j = suf.read k → j = k

/-- R233: how far DSIZE is behind ESIZE. -/
structure SizesOk (m esize dsize : Nat) (firstd : Bool) : Prop where
  first   : firstd = true → dsize = 2 ^ m + 2 ∧ esize = 2 ^ m + 2
  later   : firstd = false → (esize < 4096 → dsize + 1 = esize) ∧ (esize = 4096 → 4095 ≤ dsize ∧ dsize ≤ 4096)
  started : firstd = false → 2 ^ m + 2 < esize

/-- `EncInv` of a state in phase ENCODE, part by part. -/
structure EncOk (s : State) : Prop where
  dict    : DictOk s.lat.m.toNat s.enc.esize.toNat s.prefixMem s.suffixMem
  reset   : s.lat.nr = false → s.enc.esize.toNat < 4096
  sizes   : SizesOk s.lat.m.toNat s.enc.esize.toNat s.enc.dsize.toNat s.enc.firstd
  unique  : EntriesUnique s.lat.m.toNat s.enc.esize.toNat s.prefixMem s.suffixMem
  cur     : spellable s.lat.m.toNat s.enc.esize.toNat s.enc.cur.toNat
  ipos    : 1 ≤ s.enc.ipos.toNat ∧ s.enc.ipos.toNat ≤ s.lat.n
  indices : ∀ i, i < s.lat.n → (s.inp.read i).toNat < 2 ^ s.lat.m.toNat
  clean   : accClean s
  bits    : packedLen s + 12 ≤ 24 * s.enc.ipos.toNat

theorem EncInv.ok (inv : EncInv s) (h : s.phase = .encode) : EncOk s :=
  ⟨inv.dict h, inv.reset h, ⟨inv.first h, inv.later h, inv.started h⟩, inv.unique h, inv.cur h, inv.ipos h,
    inv.indices h, inv.clean (.inl h), inv.bits h⟩

theorem EncInv.of_ok (h : s.phase = .encode) (ok : EncOk s) : EncInv s where
  dict _ := ok.dict
  reset _ := ok.reset
  first _ := ok.sizes.first
  later _ := ok.sizes.later
  started _ := ok.sizes.started
  unique _ := ok.unique
  cur _ := ok.cur
  ipos _ := ok.ipos
  indices _ := ok.indices
  clean _ := ok.clean
  bits _ := ok.bits
  total h' := by simp [h] at h'

theorem EncInv.of_flush (h : s.phase = .flush) (clean : accClean s) (total : packedLen s ≤ 24 * s.lat.n + 24) :
    EncInv s where
  dict h' := by simp [h] at h'
  reset h' := by simp [h] at h'
  first h' := by simp [h] at h'
  later h' := by simp [h] at h'
  started h' := by simp [h] at h'
  unique h' := by simp [h] at h'
  cur h' := by simp [h] at h'
  ipos h' := by simp [h] at h'
  indices h' := by simp [h] at h'
  clean _ := clean
  bits h' := by simp [h] at h'
  total _ := total

/-! ### The dictionary grows by one entry (R240, R247) -/

theorem EntriesUnique.empty {m : Nat} (pre : Memory 12) (suf : Memory 8) : EntriesUnique m (2 ^ m + 2) pre suf :=
  fun _ _ first below => absurd first below.not_ge

section
variable {m size : Nat} {pre : Memory 12} {suf : Memory 8} {p : Code} {c : Byte}

/-- R43, R44: an entry whose PREFIX is spellable and whose SUFFIX is a symbol. -/
theorem DictOk.write (dict : DictOk m size pre suf) (room : size < 4096) (hp : spellable m size p.toNat)
    (symbol : c.toNat < 2 ^ m) : DictOk m (size + 1) (pre.write size p) (suf.write size c) := by
  refine ⟨dict.lower.trans (Nat.le_succ _), room, fun k first below => ?_⟩
  obtain held | rfl := Nat.lt_succ_iff_lt_or_eq.mp below
  · rw [Memory.read_write_other _ held.ne, Memory.read_write_other _ held.ne]
    exact dict.entries k first held
  · rw [Memory.read_write_same, Memory.read_write_same]
    exact ⟨hp, symbol⟩

/-- R247: the lookup failed, so the entry is a new one. -/
theorem EntriesUnique.write (unique : EntriesUnique m size pre suf)
    (new : ∀ k, 2 ^ m + 2 ≤ k → k < size → ¬(pre.read k = p ∧ suf.read k = c)) :
    EntriesUnique m (size + 1) (pre.write size p) (suf.write size c) := by
  intro j k firstJ belowJ firstK belowK
  obtain heldJ | rfl := Nat.lt_succ_iff_lt_or_eq.mp belowJ <;>
    obtain heldK | rfl := Nat.lt_succ_iff_lt_or_eq.mp belowK
  · simp only [Memory.read_write_other _ heldJ.ne, Memory.read_write_other _ heldK.ne]
    exact unique j k firstJ heldJ firstK heldK
  · simp only [Memory.read_write_other _ heldJ.ne, Memory.read_write_same]
    exact fun samePre sameSuf => absurd ⟨samePre, sameSuf⟩ (new j firstJ heldJ)
  · simp only [Memory.read_write_other _ heldK.ne, Memory.read_write_same]
    exact fun samePre sameSuf => absurd ⟨samePre.symm, sameSuf.symm⟩ (new k firstK heldK)
  · exact fun _ _ => rfl

end

/-! ### One index (R237) -/

theorem EncOk.extended {k : Nat} (ok : EncOk s) (latch : LatchOk s) (fits : s.lat.n < 2 ^ 32)
    (left : s.enc.ipos.toNat < s.lat.n) (found : lookup s (s.inp.read s.enc.ipos.toNat) = some k) :
    EncOk (nextIndex (setCur (narrow 12 k) s)) := by
  obtain ⟨first, below, -⟩ := lookup_some found
  rw [latch.firstFree] at first
  have cur : (narrow 12 k).toNat = k := narrow_toNat (below.trans_le ok.dict.upper)
  have ipos : (nextIndex (setCur (narrow 12 k) s)).enc.ipos.toNat = s.enc.ipos.toNat + 1 := nextIndex_ipos fits left
  refine { ok with cur := ?cur, ipos := ?ipos, bits := ?bits }
  case cur =>
    show spellable s.lat.m.toNat s.enc.esize.toNat (narrow 12 k).toNat
    rw [cur]
    exact ⟨below, by omega, by omega⟩
  case ipos => exact ⟨by omega, ipos.trans_le left⟩
  case bits =>
    rw [ipos]
    exact ok.bits.trans (by omega)

/-- R233: DSIZE follows ESIZE. -/
theorem SizesOk.inserted {m esize dsize : Nat} {firstd : Bool} (sizes : SizesOk m esize dsize firstd)
    (lower : 2 ^ m + 2 ≤ esize) (room : esize < 4096) :
    SizesOk m (esize + 1) (txDataSent dsize firstd) false := by
  have grown : txDataSent dsize firstd = esize := by
    cases firstd with
    | true =>
      obtain ⟨dsize, esize⟩ := sizes.first rfl
      rw [txDataSent, if_neg (by simp), dsize, esize]
    | false =>
      have later := (sizes.later rfl).1 room
      rw [txDataSent, if_pos ⟨rfl, by omega⟩, later]
  rw [grown]
  exact ⟨fun h => by simp at h, fun _ => ⟨fun _ => rfl, fun _ => by omega⟩, fun _ => by omega⟩

theorem SizesOk.frozen {m esize dsize : Nat} {firstd : Bool} (sizes : SizesOk m esize dsize firstd) (small : m ≤ 8)
    (full : esize = 4096) : SizesOk m esize (txDataSent dsize firstd) false := by
  have literals := Nat.pow_le_pow_right Nat.two_pos small
  cases firstd with
  | true =>
    obtain ⟨-, start⟩ := sizes.first rfl
    omega
  | false =>
    obtain ⟨low, high⟩ := (sizes.later rfl).2 full
    have sent : 4095 ≤ txDataSent dsize false ∧ txDataSent dsize false ≤ 4096 := by
      rw [txDataSent]
      split_ifs <;> omega
    exact ⟨fun h => by simp at h, fun _ => ⟨fun _ => by omega, fun _ => sent⟩, sizes.started⟩

/-- R239, R240: MISS puts the dictionary and the sizes a step further, or back to their start. -/
theorem EncOk.missed_dict {c : Byte} (ok : EncOk s) (latch : LatchOk s) (symbol : c.toNat < 2 ^ s.lat.m.toNat)
    (absent : lookup s c = none) (missed : Missed s t c) (nr : t.lat.nr = s.lat.nr) :
    DictOk s.lat.m.toNat t.enc.esize.toNat t.prefixMem t.suffixMem ∧
    (t.lat.nr = false → t.enc.esize.toNat < 4096) ∧
    SizesOk s.lat.m.toNat t.enc.esize.toNat t.enc.dsize.toNat t.enc.firstd ∧
    EntriesUnique s.lat.m.toNat t.enc.esize.toNat t.prefixMem t.suffixMem := by
  have new := lookup_none absent
  rw [latch.firstFree] at new
  have literals := Nat.pow_le_pow_right Nat.two_pos latch.small
  cases missed with
  | inserted room keeps esize dsize firstd pre suf =>
    rw [esize, dsize, firstd, pre, suf, nr]
    exact ⟨ok.dict.write room ok.cur symbol, keeps, ok.sizes.inserted ok.dict.lower room, ok.unique.write new⟩
  | reset _ _ esize dsize firstd =>
    rw [latch.firstFree] at esize dsize
    rw [esize, dsize, firstd]
    exact ⟨.empty latch.small .., fun _ => by omega, ⟨fun _ => ⟨rfl, rfl⟩, by simp, by simp⟩, EntriesUnique.empty _ _⟩
  | frozen full esize dsize firstd pre suf =>
    rw [esize, dsize, firstd, pre, suf, nr]
    exact ⟨ok.dict, ok.reset, ok.sizes.frozen latch.small (Nat.le_antisymm ok.dict.upper full), ok.unique⟩

theorem EncOk.missed (ok : EncOk s) (latch : LatchOk s) (fits : s.lat.n < 2 ^ 32) (left : s.enc.ipos.toNat < s.lat.n)
    (absent : lookup s (s.inp.read s.enc.ipos.toNat) = none) :
    EncOk (nextIndex (miss (s.inp.read s.enc.ipos.toNat) s)) := by
  have symbol := ok.indices _ left
  have same := sameRun_missed (s.inp.read s.enc.ipos.toNat) s
  obtain ⟨dict, reset, sizes, unique⟩ := ok.missed_dict latch symbol absent (missed_miss _ s) (by rw [same.lat])
  have packs := (packs_miss (s.inp.read s.enc.ipos.toNat) s).nextIndex
  have ipos : (nextIndex (miss (s.inp.read s.enc.ipos.toNat) s)).enc.ipos.toNat = s.enc.ipos.toNat + 1 := by
    rw [nextIndex_ipos fits (by rwa [miss_ipos]), miss_ipos]
  have cur : (nextIndex (miss (s.inp.read s.enc.ipos.toNat) s)).enc.cur.toNat =
      (s.inp.read s.enc.ipos.toNat).toNat := BitVec.toNat_setWidth_of_le (by decide)
  have lower := dict.lower
  have bits := ok.bits
  have len := packs.len
  refine ⟨?dict, reset, ?sizes, ?unique, ?cur, ?ipos, ?indices, packs.clean ok.clean, ?bits⟩
  case dict => rwa [same.lat]
  case sizes => rwa [same.lat]
  case unique => rwa [same.lat]
  case cur =>
    rw [same.lat, cur]
    exact ⟨by omega, symbol.ne, by omega⟩
  case ipos =>
    rw [same.lat, ipos]
    exact ⟨by omega, left⟩
  case indices =>
    rw [same.lat, same.inp]
    exact ok.indices
  case bits =>
    rw [ipos]
    exact (Nat.add_le_add_right len 12).trans (by omega)

/-! ### The ends of phase ENCODE (R244 to R246) -/

theorem packs_encoded (s : State) : Packs s (emitCode (s.lat.endCode.setWidth 12) (finalMatch s)) 24 :=
  (packs_sendData s.enc.cur s).trans (packs_emitCode _ _)

theorem EncOk.encoded (ok : EncOk s) :
    EncInv ((emitCode (s.lat.endCode.setWidth 12) (finalMatch s)).setPhase .flush) := by
  have packs := (packs_encoded s).setPhase .flush
  have bits := ok.bits
  obtain ⟨-, all⟩ := ok.ipos
  refine .of_flush rfl (packs.clean ok.clean) (packs.len.trans ?_)
  rw [State.setPhase_lat, (sameRun_encoded s).lat]
  omega

theorem packs_opened (s : State) : Packs (encoderInit s) (opened s) 12 :=
  (packs_emitCode _ _).congr ⟨rfl, rfl⟩ ⟨rfl, rfl⟩

theorem opened_enc (s : State) : (opened s).enc = ⟨s.lat.firstFree.setWidth 13, s.lat.firstFree.setWidth 13, 1,
    (s.inp.read 0).setWidth 12, true⟩ := by
  unfold opened
  rw [emitCode_frame]
  rfl

/-- R245: after ENCODER_INIT, E_CLEAR_START and MATCH_START the encoder is between two indices. -/
theorem EncOk.opened (latch : LatchOk s) (positive : 0 < s.lat.n)
    (indices : ∀ i, i < s.lat.n → (s.inp.read i).toNat < 2 ^ s.lat.m.toNat) : EncOk (opened s) := by
  have same := sameRun_opened s
  have packs := packs_opened s
  have size := firstFree_setWidth_toNat latch
  have cur : ((s.inp.read 0).setWidth 12).toNat = (s.inp.read 0).toNat := BitVec.toNat_setWidth_of_le (by decide)
  have symbol := indices 0 positive
  have literals := Nat.pow_le_pow_right Nat.two_pos latch.small
  refine ⟨?dict, ?reset, ?sizes, ?unique, ?cur, ?ipos, ?indices, packs.clean Nat.one_pos, ?bits⟩
  case indices =>
    rw [same.lat, same.inp]
    exact indices
  all_goals rw [opened_enc]
  case bits => exact Nat.add_le_add_right packs.len 12
  all_goals rw [same.lat]
  case ipos => exact ⟨le_rfl, positive⟩
  all_goals rw [size]
  case dict => exact .empty latch.small ..
  case reset => exact fun _ => by omega
  case sizes => exact ⟨fun _ => ⟨rfl, rfl⟩, by simp, by simp⟩
  case unique => exact EntriesUnique.empty _ _
  case cur =>
    rw [cur]
    exact ⟨by omega, symbol.ne, by omega⟩

/-! ### Every step -/

/-- R42, R342: in phase ENCODE the input is the indices, and `N` has the 32 bits of IN_LEN. -/
theorem RunInv.encode_length (run : RunInv s) (h : s.phase = .encode ∨ s.phase = .flush) :
    framedBound s.lat.n ≤ s.params.outCap ∧ s.lat.ilen.toNat = s.lat.n := by
  have op := run.encoding h
  obtain h | h := h <;> exact (run.capacity (by simp [h]) (by simp [h])).2 op

/-- R381: while BUSY the host leaves the running transaction's input alone. -/
theorem EncInv.hostMove (inv : EncInv s) (host : HostInv s) (run : RunInv s) (move : HostMove s t) : EncInv t := by
  cases move with
  | start op => exact .of_not_encoding (by simp) (by simp)
  | reset => exact .of_not_encoding (show Phase.idle ≠ .encode by decide) (show Phase.idle ≠ .flush by decide)
  | writeReg | read => exact { inv with }
  | writeIn a b outside =>
    refine { inv with indices := fun h i hi => ?_ }
    obtain ⟨-, length⟩ := run.encode_length (.inl h)
    have busy : s.busy = true := host.busy.mpr (by simp [show s.phase = .encode from h])
    have beyond : i ≠ a := fun same => outside ⟨busy, by rw [length, ← same]; exact hi⟩
    show ((s.inp.write a b).read i).toNat < _
    rw [Memory.read_write_other _ beyond]
    exact inv.indices h i hi

theorem EncInv.blockMove (inv : EncInv s) (run : RunInv s) (move : BlockMove s t) : EncInv t := by
  cases move with
  | wait => exact inv
  | aborted | published | passed | decoded | flushed => exact .of_not_encoding (by simp [publish]) (by simp [publish])
  | deframed h deframed => exact .of_not_encoding (by simp [decoderInit]) (by simp [decoderInit])
  | control dec h =>
    have phase := (sameRun_control dec s.decWidth s).phase.trans h
    exact .of_not_encoding (by rw [phase]; decide) (by rw [phase]; decide)
  | data c q stk h =>
    have phase := (sameRun_data c q stk s.decWidth s).phase.trans h
    exact .of_not_encoding (by rw [phase]; decide) (by rw [phase]; decide)
  | opened check _ mcs dims _ _ index =>
    obtain ⟨wid, hgt⟩ := dimsBad_eq_false_iff.mp dims
    obtain ⟨small, clear, ended, firstFree⟩ :=
      latchOk_of_latched (mcsLegal_iff.mp mcs).2 (run.latched (by simp [check]))
    exact .of_ok (sameRun_opened _).phase
      (.opened ⟨small, clear, ended, firstFree⟩ (pixelCount_pos wid hgt) (indexBad_eq_false_iff.mp index))
  | extended k h left found =>
    have latch := run.latchOk (by simp [h]) (by simp [h])
    have fits := (run.encode_length (.inl h)).2 ▸ s.lat.ilen.isLt
    exact .of_ok ((sameRun_extended k s).phase.trans h) ((inv.ok h).extended latch fits left found)
  | missed h left absent =>
    have latch := run.latchOk (by simp [h]) (by simp [h])
    have fits := (run.encode_length (.inl h)).2 ▸ s.lat.ilen.isLt
    exact .of_ok ((sameRun_missed _ s).phase.trans h) ((inv.ok h).missed latch fits left absent)
  | encoded h => exact (inv.ok h).encoded

/-- Settles O53: the host leaves the input alone, and an index taken leaves the encoder between two indices. -/
theorem encInvKept : Obligations.EncInvKept := fun _ _ host run inv =>
  step_of_moves (P := fun s => HostInv s ∧ RunInv s ∧ EncInv s)
    (fun _ _ _ ⟨host, run, inv⟩ => ⟨{ host with }, { run with }, { inv with }⟩)
    (fun _ _ ⟨host, run, inv⟩ => inv.hostMove host run)
    (fun _ _ ⟨_, run, inv⟩ runs => inv.blockMove run (blockMove_of_blockStep runs)) ⟨host, run, inv⟩

end Sys2Proof.Machine

/-! OUT stays within its capacity (R70, R78, R86): what each move stores, and where. -/

namespace Sys2Proof.Machine

variable {s t : State}

/-- R86, R142: the bound of R86 counts every payload byte an ENCODE can emit. -/
theorem payloadAddr_lt_framedBound {i n : Nat} (h : 8 * i < 24 * n + 24) : payloadAddr i < framedBound n := by
  rw [payloadAddr_eq, framedBound, ceilDiv]
  omega

theorem mem_outputSyms {syms : List Byte} {p : Nat × Byte} (h : p ∈ (outputSyms syms s).out.cells) :
    p ∈ s.out.cells ∨ ∃ j, j < s.lat.n ∧ p.1 = addrOf s.lat j := by
  induction syms generalizing s with
  | nil => exact .inl h
  | cons b syms ih =>
    obtain before | ⟨j, hj, stored⟩ := ih (s := outputSym s b) h
    · by_cases below : s.dec.ocount < s.lat.n
      · rw [outputSym_out_of_below b below] at before
        exact (Memory.mem_write _ before).symm.imp_right fun same => ⟨_, below, congrArg Prod.fst same⟩
      · rw [outputSym_out_of_full b below] at before
        exact .inl before
    · rw [outputSym_lat] at hj stored
      exact .inr ⟨j, hj, stored⟩

theorem OutInv.of_cells (inv : OutInv s) (params : t.params = s.params)
    (cells : ∀ p ∈ t.out.cells, p ∈ s.out.cells ∨ p.1 < s.params.outCap) : OutInv t := by
  intro p hp
  rw [params]
  exact (cells p hp).elim (inv p) id

theorem OutInv.setPhase (inv : OutInv s) (p : Phase) : OutInv (s.setPhase p) := inv

theorem OutInv.of_packs {before : State} {w n : Nat} (inv : OutInv s) (params : t.params = s.params)
    (out : before.out = s.out) (packs : Packs before t w) (within : packedLen before + w ≤ 24 * n + 24)
    (capacity : framedBound n ≤ s.params.outCap) : OutInv t := by
  refine inv.of_cells params fun p hp => ?_
  obtain held | ⟨i, hi, stored⟩ := packs.cells p hp
  · exact .inl (out ▸ held)
  · exact .inr (stored ▸ (payloadAddr_lt_framedBound (by omega)).trans_le capacity)

theorem OutInv.hostMove (inv : OutInv s) (move : HostMove s t) : OutInv t := by
  cases move with
  | reset => exact .of_unspecified rfl
  | start | writeReg | writeIn | read => exact inv

/-- R147: FLUSH stays within the bound on the framed length. -/
theorem flushed_le_framedBound (total : packedLen s ≤ 24 * s.lat.n + 24) :
    flushedLen s + subBlocks (flushedLen s) < framedBound s.lat.n := by
  have len : flushedLen s ≤ 3 * s.lat.n + 3 := by
    rw [packedLen] at total
    rw [flushedLen]
    split_ifs <;> omega
  rw [subBlocks, framedBound, ceilDiv]
  omega

theorem OutInv.blockMove (inv : OutInv s) (run : RunInv s) (enc : EncInv s) (move : BlockMove s t) : OutInv t := by
  cases move with
  | wait | passed | control | decoded | extended | published => exact inv
  | aborted => exact .of_unspecified rfl
  | deframed _ deframed =>
    obtain ⟨frame, -⟩ := deframe_frame deframed
    rw [frame]
    exact inv
  | data c q stk h =>
    have out : (emitSeq c q ((advanced s s.decWidth).setStk stk)).out =
        (outputSyms q.syms ((advanced s s.decWidth).setStk stk)).out := by rw [emitSeq, insertEntry_frame]
    have capacity := (run.capacity (by simp [h]) (by simp [h])).1 (run.decoding (.inr h))
    refine inv.of_cells (sameRun_data c q stk s.decWidth s).params fun p hp => ?_
    rw [out] at hp
    refine (mem_outputSyms hp).imp_right fun ⟨j, hj, stored⟩ => ?_
    rw [stored]
    exact (addrOf_lt (run.placeOk (by simp [h]) (by simp [h])) hj).trans_le capacity
  | opened _ _ _ _ _ within =>
    obtain ⟨-, -, capacity⟩ := overCapacity_false.mp within
    exact inv.of_packs (before := encoderInit (checked .encode s)) (sameRun_opened _).params rfl (packs_opened _)
      (Nat.le_add_left _ _) capacity
  | missed h left =>
    have bits := (enc.ok h).bits
    exact inv.of_packs (sameRun_missed _ s).params rfl (packs_miss _ s).nextIndex (n := s.lat.n) (by omega)
      (run.encode_length (.inl h)).1
  | encoded h =>
    have bits := (enc.ok h).bits
    obtain ⟨-, all⟩ := (enc.ok h).ipos
    exact (inv.of_packs (sameRun_encoded s).params rfl (packs_encoded s) (n := s.lat.n) (by omega)
      (run.encode_length (.inl h)).1).setPhase .flush
  | flushed h =>
    have bound := flushed_le_framedBound (enc.total h)
    refine (inv.of_cells (sameRun_flushOut s).params fun p hp => (mem_flushOut hp).imp_right fun stored => ?_).setPhase
      .finish
    exact (stored.trans_lt bound).trans_le (run.encode_length (.inr h)).1

/-- Settles O54: a decoder's stores are below `N`, a packer's below R86's bound. -/
theorem outStaysInCapacity : Obligations.OutStaysInCapacity := fun _ _ run enc inv =>
  step_of_moves (P := fun s => RunInv s ∧ EncInv s ∧ OutInv s)
    (fun _ _ _ ⟨run, enc, inv⟩ => ⟨{ run with }, { enc with }, inv⟩) (fun _ _ ⟨_, _, inv⟩ => inv.hostMove)
    (fun _ _ ⟨run, enc, inv⟩ runs => inv.blockMove run enc (blockMove_of_blockStep runs)) ⟨run, enc, inv⟩

end Sys2Proof.Machine

/-! Runs of the block (R18, R391): what a transaction needs to end. -/

namespace Sys2Proof.Machine

variable {s t u : State}

/-! ### Running steps one after another -/

theorem runBlock_of_idle (idle : s.phase = .idle) (k : Nat) : runBlock k s = .next s := by
  cases k with
  | zero => rfl
  | succ k => rw [runBlock, if_pos idle]

theorem runBlock_succ (busy : s.phase ≠ .idle) (k : Nat) : runBlock (k + 1) s = andThen (blockStep s) (runBlock k) := by
  rw [runBlock, if_neg busy]

theorem runBlock_of_step (busy : s.phase ≠ .idle) (step : blockStep s = .next t) (k : Nat) :
    runBlock (k + 1) s = runBlock k t := by
  rw [runBlock_succ busy, step, andThen_next_eq]

theorem runBlock_add {j : Nat} (runs : runBlock j s = .next t) (k : Nat) : runBlock (j + k) s = runBlock k t := by
  induction j generalizing s with
  | zero =>
    cases runs
    rw [Nat.zero_add]
  | succ j ih =>
    by_cases idle : s.phase = .idle
    · rw [runBlock_of_idle idle] at runs
      cases runs
      rw [runBlock_of_idle idle, runBlock_of_idle idle]
    · rw [runBlock_succ idle] at runs
      obtain ⟨v, step, rest⟩ := andThen_next runs
      rw [Nat.succ_add, runBlock_of_step idle step, ih rest]

/-! ### A DECODE (R197) -/

theorem exists_finishPhase (s : State) : ∃ t, finishPhase s = .next t ∧ t.phase = .idle := by
  unfold finishPhase
  split
  · show ∃ t, execFinishDecode s = _ ∧ _
    unfold execFinishDecode
    split_ifs <;> exact ⟨_, rfl, rfl⟩
  · exact ⟨_, rfl, rfl⟩

/-- Every width a dictionary has is at least 3 (R197). -/
theorem three_le_Wd {D : Nat} (h : 6 ≤ D) : 3 ≤ Wd D := by
  refine Nat.lt_of_not_le fun small => ?_
  have spells := Wd_le_iff.mp small
  omega

theorem DecInv.three_le_decWidth (inv : DecInv s) (run : RunInv s) (h : s.phase = .lzwdec) : 3 ≤ s.decWidth := by
  obtain ⟨⟨low, -⟩, -⟩ := run.checked (by simp [h]) (by simp [h])
  have literals : 2 ^ 2 ≤ 2 ^ s.lat.m.toNat := Nat.pow_le_pow_right Nat.two_pos low
  have lower := (inv.dict h).lower
  exact three_le_Wd (by omega)

/-- A code read ends the DECODE or goes on with its bits consumed. -/
theorem CodeStep.phase_cases {k : CodeClass} (step : CodeStep s k t) :
    t.phase = .idle ∨ (t.phase = s.phase ∧ t.unp = s.unp) := by
  cases step with
  | clear | ended => exact .inr ⟨rfl, rfl⟩
  | data _ _ step =>
    rw [step.frame]
    exact .inr ⟨rfl, rfl⟩
  | badcode => exact .inl rfl

/-- R197: with fewer than `3 * k` bits left fewer than `k` codes can be read, and at most three steps close the
DECODE. -/
theorem DecInv.ends {k : Nat} (run : RunInv s) (inv : DecInv s) (h : s.phase = .lzwdec)
    (left : 8 * s.unp.plen.toNat - s.unp.bitpos.toNat < 3 * k) :
    ∃ t, runBlock (k + 2) s = .next t ∧ t.phase = .idle := by
  induction k generalizing s with
  | zero => exact absurd left (Nat.not_lt_zero _)
  | succ k ih =>
    have busy : s.phase ≠ .idle := by simp [h]
    by_cases done : s.dec.dstate = .done
    · obtain ⟨t, finishes, idle⟩ := exists_finishPhase (s.setPhase .finish)
      have finish := (blockStep_of_finish rfl).trans finishes
      rw [runBlock_of_step busy (blockStep_of_decoded h done), runBlock_of_step (by simp) finish, runBlock_of_idle idle]
      exact ⟨t, rfl, idle⟩
    · have step := blockStep_of_lzwdec h done
      obtain short | enough := Nat.lt_or_ge (8 * s.unp.plen.toNat) (s.unp.bitpos.toNat + s.decWidth)
      · rw [exec_decstep_of_short short] at step
        rw [runBlock_of_step busy step, runBlock_of_idle rfl]
        exact ⟨_, rfl, rfl⟩
      · have wide := inv.three_le_decWidth run h
        obtain ⟨t, runs, code⟩ := exec_decstep_codeStep run inv h enough
        rw [runs] at step
        rw [runBlock_of_step busy step]
        obtain idle | ⟨stays, unp⟩ := code.phase_cases
        · rw [runBlock_of_idle idle]
          exact ⟨t, rfl, idle⟩
        · refine ih (run.blockMove (blockMove_of_blockStep step)) (inv.blockStep run step) (stays.trans h) ?_
          rw [unp, advanced_bitpos enough]
          exact (by omega : 8 * s.unp.plen.toNat - (s.unp.bitpos.toNat + s.decWidth) < 3 * k)

/-- Settles O55: at the start of phase LZWDEC at most `8 * PLEN` bits are left. -/
theorem decodeEnds : Obligations.DecodeEnds := fun s run inv h =>
  inv.ends (k := 8 * s.unp.plen.toNat / 3 + 1) run h (by omega)

/-! ### An ENCODE (R254, R391) -/

/-- R237: a step takes an index, hit or miss. -/
theorem blockStep_takes_index (run : RunInv s) (h : s.phase = .encode) (left : s.enc.ipos.toNat < s.lat.n) :
    ∃ t, blockStep s = .next t ∧ SameRun s t ∧ t.enc.ipos.toNat = s.enc.ipos.toNat + 1 := by
  have fits := (run.encode_length (.inl h)).2 ▸ s.lat.ilen.isLt
  rw [blockStep_of_index h left]
  cases found : lookup s (s.inp.read s.enc.ipos.toNat) with
  | some k =>
    have counted : (nextIndex (setCur (narrow 12 k) s)).enc.ipos.toNat = s.enc.ipos.toNat + 1 :=
      nextIndex_ipos fits left
    exact ⟨_, exec_encStep_of_hit left found, sameRun_extended k s, counted⟩
  | none =>
    refine ⟨_, exec_encStep_of_miss left found, sameRun_missed _ s, ?_⟩
    rw [nextIndex_ipos fits (by rwa [miss_ipos]), miss_ipos]

/-- R254: one step for each index left. -/
theorem exists_runBlock_encoded (run : RunInv s) (h : s.phase = .encode) :
    ∃ t, runBlock (s.lat.n - s.enc.ipos.toNat) s = .next t ∧ SameRun s t ∧ t.lat.n ≤ t.enc.ipos.toNat := by
  generalize count : s.lat.n - s.enc.ipos.toNat = k
  induction k generalizing s with
  | zero => exact ⟨s, rfl, .refl s, by omega⟩
  | succ k ih =>
    obtain ⟨t, step, same, counted⟩ := blockStep_takes_index run h (by omega)
    obtain ⟨u, runs, same', all⟩ := ih (run.of_same same) (same.phase.trans h) (by rw [same.lat, counted]; omega)
    exact ⟨u, (runBlock_of_step (by simp [h]) step k).trans runs, same.trans same', all⟩

/-- What phases FLUSH and FINISH of an ENCODE leave (R147, R316). -/
def flushedAndPublished (s : State) : State :=
  publish (flushOut s).pk.flen (flushOut s).lat.ilen ((flushOut s).setPhase .finish)

theorem runBlock_flush (h : s.phase = .flush) (op : s.lat.op = .encode) :
    runBlock 2 s = .next (flushedAndPublished s) := by
  have finish : blockStep ((flushOut s).setPhase .finish) = .next (flushedAndPublished s) := by
    have op' : ((flushOut s).setPhase .finish).lat.op = .encode := by
      rw [State.setPhase_lat, (sameRun_flushOut s).lat, op]
    rw [blockStep_of_finish rfl, finishPhase, op']
    rfl
  rw [runBlock_of_step (by simp [h]) (blockStep_of_flush h), runBlock_of_step (by simp) finish, runBlock]

/-- What phase ENCODE leaves once no index is left (R244, R246). -/
def closed (s : State) : State := (emitCode (s.lat.endCode.setWidth 12) (finalMatch s)).setPhase .flush

theorem closed_lat (s : State) : (closed s).lat = s.lat := (sameRun_encoded s).lat

theorem flushedAndPublished_results (s : State) : (flushedAndPublished s).phase = .idle ∧
    (flushedAndPublished s).regs.status = statusSuccess ∧ (flushedAndPublished s).regs.inConsumed = s.lat.ilen :=
  ⟨rfl, rfl, congrArg Latched.ilen (sameRun_flushOut s).lat⟩

/-- R391: FINAL and E_END, FLUSH, FINISH. -/
theorem runBlock_close (run : RunInv s) (h : s.phase = .encode) (ended : s.lat.n ≤ s.enc.ipos.toNat) :
    runBlock 3 s = .next (flushedAndPublished (closed s)) := by
  have op : (closed s).lat.op = .encode := by rw [closed_lat, run.encoding (.inl h)]
  rw [runBlock_of_step (by simp [h]) (blockStep_of_encoded h ended)]
  exact runBlock_flush rfl op

/-- Settles O56: one step an index, and the three that close the transaction. -/
theorem encodeEnds : Obligations.EncodeEnds := by
  intro s run _ h
  obtain ⟨t, runs, same, all⟩ := exists_runBlock_encoded run h
  obtain ⟨idle, status, inConsumed⟩ := flushedAndPublished_results (closed t)
  refine ⟨_, (runBlock_add runs 3).trans (runBlock_close (run.of_same same) (same.phase.trans h) all), idle, status, ?_⟩
  rw [inConsumed, closed_lat, same.lat]

end Sys2Proof.Machine

/-! The step level of a DECODE is the transaction level's function (R18, R318): code by code, the decoder's dictionary
spells the transaction level's table, and OUT holds what has been emitted. -/

namespace Sys2Proof.Machine

variable {s t u : State} {m n c k : Nat} {table : List (List Byte)} {prev : Option (List Byte)}
  {payload emitted indices S : List Byte} {q : Seq}

/-! ### The raster (R72, R284) -/

/-- R285: every address below `N` is some position's. -/
theorem exists_addrOf_eq (place : PlaceOk s) {a : Nat} (ha : a < s.lat.n) : ∃ p, p < s.lat.n ∧ addrOf s.lat p = a := by
  let f : Fin s.lat.n → Fin s.lat.n := fun p => ⟨addrOf s.lat p, addrOf_lt place p.isLt⟩
  have injective : Function.Injective f := fun p q same =>
    Fin.ext (addrOf_injOn place p.isLt q.isLt (Fin.ext_iff.mp same))
  obtain ⟨p, hp⟩ := Finite.surjective_of_injective injective ⟨a, ha⟩
  exact ⟨p, p.isLt, congrArg Fin.val hp⟩

theorem length_foldl_set (f : Nat → Nat) (g : Nat → Byte) (raster : List Byte) (k : Nat) :
    ((List.range k).foldl (fun raster p => raster.set (f p) (g p)) raster).length = raster.length := by
  induction k with
  | zero => rfl
  | succ k ih => rw [List.range_succ, List.foldl_append, List.foldl_cons, List.foldl_nil, List.length_set, ih]

/-- Places written one after another hold what was put there, where no place is written twice. -/
theorem foldl_set_getElem? {f : Nat → Nat} {g : Nat → Byte} (inj : Set.InjOn f (Set.Iio n)) (raster : List Byte)
    (hk : k ≤ n) (within : ∀ p, p < n → f p < raster.length) {p : Nat} (hp : p < k) :
    ((List.range k).foldl (fun raster p => raster.set (f p) (g p)) raster)[f p]? = some (g p) := by
  induction k with
  | zero => exact absurd hp (Nat.not_lt_zero _)
  | succ k ih =>
    rw [List.range_succ, List.foldl_append, List.foldl_cons, List.foldl_nil]
    obtain before | rfl := Nat.lt_succ_iff_lt_or_eq.mp hp
    · have apart : f k ≠ f p := fun same => before.ne' (inj hk (before.trans hk) same)
      rw [List.getElem?_set_ne apart, ih (Nat.le_of_succ_le hk) before]
    · rw [List.getElem?_set_self ((within p hk).trans_eq (length_foldl_set ..).symm)]

theorem length_txPlace (l : Latched) (indices : List Byte) : (txPlace l indices).length = indices.length := by
  rw [txPlace, length_foldl_set, List.length_replicate]

/-- R284: the raster holds each index at its position's address. -/
theorem txPlace_getElem? (place : PlaceOk s) (count : indices.length = s.lat.n) {p : Nat} (hp : p < indices.length) :
    (txPlace s.lat indices)[addrOf s.lat p]? = some indices[p] := by
  have placed := foldl_set_getElem? (g := fun p => indices.getD p 0) (addrOf_injOn place)
    (List.replicate indices.length 0) count.le
    (fun p hp => (addrOf_lt place hp).trans_eq (by rw [List.length_replicate, count])) hp
  rwa [List.getD_eq_getElem _ _ hp] at placed

/-! ### The decoder and the transaction level in step -/

/-- The decoder is between two codes with the dictionary `table`, the previous sequence `prev`, and `emitted` output. -/
structure DecSim (s : State) (table : List (List Byte)) (prev : Option (List Byte)) (emitted : List Byte) : Prop where
  size    : s.dec.d.toNat = 2 ^ s.lat.m.toNat + 2 + table.length
  entries : ∀ i (h : i < table.length), decSpells s (2 ^ s.lat.m.toNat + 2 + i) table[i]
  prev    : (prev = none ∧ s.dec.prevValid = false) ∨
    ∃ P, prev = some P ∧ s.dec.prevValid = true ∧ decSpells s s.dec.prev.toNat P
  count   : s.dec.ocount = emitted.length
  stored  : ∀ j (h : j < emitted.length), j < s.lat.n → s.out.read (addrOf s.lat j) = emitted[j]

/-- R105: a code that stands for `S` is looked up as `S`. -/
theorem DecSim.txSeq_of_stands (sim : DecSim s table prev emitted) (stands : Stands s c S) :
    txSeq s.lat.m.toNat table prev c = some S := by
  cases stands with
  | known spelled =>
    cases spelled with
    | literal _ isLit => exact txSeq_literal isLit
    | entry _ P first below spelled =>
      obtain ⟨i, rfl⟩ := Nat.exists_eq_add_of_le first
      have held : i < table.length := by
        have size := sim.size
        omega
      have same := (sim.entries i held).unique (.entry _ P first below spelled)
      rw [txSeq_entry held, List.getElem?_eq_getElem held, same]
  | @next P b isNext room valid spelled head =>
    obtain ⟨-, invalid⟩ | ⟨P', rfl, -, spelled'⟩ := sim.prev
    · exact absurd valid (ne_true_of_eq_false invalid)
    · obtain rfl := spelled.unique spelled'
      rw [sim.size] at isNext
      have first : P'.take 1 = [b] := by
        cases P' with
        | nil => cases head
        | cons _ _ => exact congrArg (· :: []) (Option.some.inj head)
      rw [isNext, txSeq_next (isNext ▸ room), Option.map_some, first]

/-- R105, R186: a code of class BADCODE stands for nothing. -/
theorem DecSim.txSeq_of_bad (sim : DecSim s table prev emitted)
    (bad : (c = s.dec.d.toNat ∧ s.dec.prevValid = false) ∨ s.dec.d.toNat < c) :
    txSeq s.lat.m.toNat table prev c = none := by
  have size := sim.size
  rw [txSeq, if_neg (by omega), if_neg (by omega)]
  split_ifs with isNext
  · have invalid : s.dec.prevValid = false := by
      obtain ⟨-, invalid⟩ | above := bad
      · exact invalid
      · omega
    obtain ⟨rfl, -⟩ | ⟨-, -, valid, -⟩ := sim.prev
    · rfl
    · exact absurd valid (ne_true_of_eq_false invalid)
  · rfl

theorem Inserted.spells_kept {s0 : Byte} (inserted : Inserted s t c s0) (lat : t.lat = s.lat)
    (spelled : decSpells s k S) : decSpells t k S := by
  by_cases grows : s.dec.prevValid = true ∧ s.dec.d.toNat < 4096
  · obtain ⟨valid, room⟩ := grows
    obtain ⟨size, -, -, other⟩ := inserted.grown valid room
    rw [decSpells, lat, size]
    exact spelled.mono (Nat.le_succ _) fun j hj => other j hj.ne
  · obtain ⟨size, pre, suf⟩ := inserted.frozen grows
    rw [decSpells, lat, size, pre, suf]
    exact spelled

/-- R183 to R185: the code just processed spells what it stood for. -/
theorem DataStep.spells (step : DataStep s t c q) (ready : DecReady s) : decSpells t c q.syms := by
  have inserted := step.inserted
  have stands := step.stands
  generalize syms : q.syms = S at stands
  cases stands with
  | known spelled => exact inserted.spells_kept step.lat spelled
  | @next P b isNext room valid spelled head =>
    have first : q.first = b := by
      cases P with
      | nil => cases head
      | cons _ _ => exact (List.cons.inj syms).1.trans (Option.some.inj head)
    rw [isNext, ← first]
    exact inserted.spells step.lat valid (isNext ▸ room) ready.dict.lower spelled

theorem DataStep.kept (step : DataStep s t c q) : t.phase = s.phase ∧ t.unp = s.unp ∧ t.pay = s.pay := by
  rw [step.frame]
  exact ⟨rfl, rfl, rfl⟩

/-- R187: the table after a data code is what the decoder's dictionary spells after it. -/
theorem DecSim.inserted (sim : DecSim s table prev emitted) (ready : DecReady s) (step : DataStep s t c q) :
    t.dec.d.toNat = 2 ^ s.lat.m.toNat + 2 + (txInsert s.lat.m.toNat table prev q.syms).length ∧
    ∀ i (h : i < (txInsert s.lat.m.toNat table prev q.syms).length),
      decSpells t (2 ^ s.lat.m.toNat + 2 + i) (txInsert s.lat.m.toNat table prev q.syms)[i] := by
  have inserted := step.inserted
  have kept i (h : i < table.length) := inserted.spells_kept step.lat (sim.entries i h)
  have size := sim.size
  obtain ⟨P, rfl, room, grown⟩ | ⟨still, same⟩ := txInsert_cases s.lat.m.toNat table prev q.syms
  · obtain ⟨none, -⟩ | ⟨P', some, valid, spelled⟩ := sim.prev
    · cases none
    cases some
    rw [← size] at room
    have named := inserted.spells step.lat valid room ready.dict.lower spelled
    obtain ⟨size', -⟩ := inserted.grown valid room
    have first : q.syms.take 1 = [q.first] := rfl
    rw [size] at named size'
    simp only [grown, first, List.length_append, List.length_singleton]
    refine ⟨size', fun i hi => ?_⟩
    rw [List.getElem_append]
    split_ifs with held
    · exact kept i held
    · obtain rfl : i = table.length := Nat.le_antisymm (Nat.le_of_lt_succ hi) (Nat.le_of_not_lt held)
      simpa using named
  · have frozen : ¬(s.dec.prevValid = true ∧ s.dec.d.toNat < 4096) := by
      rintro ⟨valid, room⟩
      obtain rfl | full := still
      · obtain ⟨-, invalid⟩ | ⟨_, some, -⟩ := sim.prev
        · exact absurd valid (ne_true_of_eq_false invalid)
        · cases some
      · omega
    simp only [same]
    exact ⟨(inserted.frozen frozen).1 ▸ size, kept⟩

/-- R183 to R189: a data code keeps the two levels in step. -/
theorem DecSim.data (sim : DecSim s table prev emitted) (ready : DecReady s) (place : PlaceOk s)
    (step : DataStep s t c q) :
    DecSim t (txInsert s.lat.m.toNat table prev q.syms) (some q.syms) (emitted ++ q.syms) := by
  obtain ⟨size, entries⟩ := sim.inserted ready step
  obtain ⟨count, stored, elsewhere⟩ := step.stored
  rw [sim.count] at count stored elsewhere
  have prev := step.inserted.prev
  refine ⟨?_, ?_, .inr ⟨_, rfl, step.inserted.valid, prev ▸ step.spells ready⟩, ?_, fun j hj below => ?_⟩
  · rw [step.lat, size]
  · rw [step.lat]
    exact entries
  · rw [count, List.length_append]
  · rw [step.lat] at below ⊢
    rw [List.getElem_append]
    split_ifs with before
    · rw [elsewhere, sim.stored j before below]
      intro i _ below' same
      have := addrOf_injOn place below below' same
      omega
    · obtain ⟨i, rfl⟩ := Nat.exists_eq_add_of_le (Nat.le_of_not_lt before)
      rw [List.length_append] at hj
      rw [stored i (by omega) below]
      exact getElem_congr_idx (by omega)

/-- R180, R181: a span starts with literals only. -/
theorem DecSim.of_span_start (latch : LatchOk s) (size : s.dec.d = s.lat.firstFree.setWidth 13)
    (noPrev : s.dec.prevValid = false) (count : s.dec.ocount = emitted.length)
    (stored : ∀ j (h : j < emitted.length), j < s.lat.n → s.out.read (addrOf s.lat j) = emitted[j]) :
    DecSim s [] none emitted := by
  refine ⟨?_, by simp, .inl ⟨rfl, noPrev⟩, count, stored⟩
  rw [size, firstFree_setWidth_toNat latch]
  rfl

/-! ### One code -/

/-- The payload bits the unpacker has before it. -/
def bitsLeft (payload : List Byte) (s : State) : List Bool := (bitsOfBytes payload).drop s.unp.bitpos.toNat

theorem length_bitsLeft (holds : PayHolds s payload) :
    (bitsLeft payload s).length = 8 * s.unp.plen.toNat - s.unp.bitpos.toNat := by
  rw [bitsLeft, List.length_drop, length_bitsOfBytes, holds.plen]

/-- R74, R101: the code READCODE reads is the one the bits spell. -/
theorem sumBits_bitsLeft (holds : PayHolds s payload) {w : Nat}
    (enough : s.unp.bitpos.toNat + w ≤ 8 * s.unp.plen.toNat) :
    sumBits (fun i => ((bitsLeft payload s).getD i false).toNat) w = nextCode w s := by
  rw [nextCode, payloadBit_eq_toNat_getLsbD]
  refine sumBits_congr fun i hi => congrArg Bool.toNat ?_
  have inPayload : (s.unp.bitpos.toNat + i) / 8 < payload.length := by
    rw [← holds.plen]
    omega
  rw [List.getD_eq_getElem?_getD, bitsLeft, List.getElem?_drop, bitsOfBytes_getElem?,
    List.getElem?_eq_getElem inPayload, ← holds.bytes _ inPayload]
  rfl

/-- A DECODE that has ended in `x` (R334). -/
structure Aborted (t : State) (x : Cause) : Prop where
  phase      : t.phase = .idle
  status     : t.regs.status = statusAborted x
  outLen     : t.regs.outLen = 0
  inConsumed : t.regs.inConsumed = 0

theorem aborted_abortState (x : Cause) (s : State) : Aborted (abortState x s) x := ⟨rfl, rfl, rfl, rfl⟩

/-- From `s` the decoder has come to phase FINISH with `indices` output (R306). -/
structure Decoded (s t : State) (indices : List Byte) : Prop where
  phase  : t.phase = .finish
  lat    : t.lat = s.lat
  icons  : t.unp.icons = s.unp.icons
  count  : t.dec.ocount = indices.length
  stored : ∀ j (h : j < indices.length), j < s.lat.n → t.out.read (addrOf s.lat j) = indices[j]

/-- The block, run from `s`, comes to what the transaction level's decoder answers. -/
def DecodesTo (s : State) : Except Cause (List Byte) → Prop
  | .ok indices => ∃ k t, runBlock k s = .next t ∧ Decoded s t indices
  | .error x => ∃ k t, runBlock k s = .next t ∧ Aborted t x

theorem DecodesTo.of_step {r : Except Cause (List Byte)} (busy : s.phase ≠ .idle) (step : blockStep s = .next t)
    (lat : t.lat = s.lat) (icons : t.unp.icons = s.unp.icons) (rest : DecodesTo t r) : DecodesTo s r := by
  cases r with
  | ok indices =>
    obtain ⟨k, u, runs, phase, lat', icons', count, stored⟩ := rest
    rw [lat] at stored
    exact ⟨k + 1, u, (runBlock_of_step busy step k).trans runs, phase, lat'.trans lat, icons'.trans icons, count,
      stored⟩
  | error x =>
    obtain ⟨k, u, runs, aborted⟩ := rest
    exact ⟨k + 1, u, (runBlock_of_step busy step k).trans runs, aborted⟩

/-- R182, R306: with END read, phase FINISH is next. -/
theorem DecSim.ended (sim : DecSim s table prev emitted) (h : s.phase = .lzwdec) (done : s.dec.dstate = .done) :
    DecodesTo s (.ok emitted) :=
  ⟨1, _, (runBlock_of_step (by simp [h]) (blockStep_of_decoded h done) 0).trans rfl, rfl, rfl, rfl, sim.count,
    sim.stored⟩

/-- What an answer of the transaction level's decoder is, one code of its stream read (R189). -/
theorem txDecodeCodes_of_code {bits : List Bool} {w : Nat} (width : Wd (2 ^ m + 2 + table.length) = w)
    (enough : w ≤ bits.length) (code : sumBits (fun i => (bits.getD i false).toNat) w = c) :
    (c = 2 ^ m → txDecodeCodes m (n + 1) bits table prev emitted = txDecodeCodes m n (bits.drop w) [] none emitted) ∧
    (c = 2 ^ m + 1 → txDecodeCodes m (n + 1) bits table prev emitted = .ok emitted) ∧
    (c ≠ 2 ^ m → c ≠ 2 ^ m + 1 → txSeq m table prev c = none → txDecodeCodes m (n + 1) bits table prev emitted =
      .error (if 2 ^ m + 2 + table.length < c then .badCode else .deferNoPrev)) ∧
    ∀ S, c ≠ 2 ^ m → c ≠ 2 ^ m + 1 → txSeq m table prev c = some S →
      txDecodeCodes m (n + 1) bits table prev emitted =
        txDecodeCodes m n (bits.drop w) (txInsert m table prev S) (some S) (emitted ++ S) := by
  subst width code
  refine ⟨fun isClear => ?_, fun isEnd => ?_, fun notClear notEnd none => ?_, fun S notClear notEnd some => ?_⟩
  · simp only [txDecodeCodes, enough.not_gt, isClear, if_true, if_false]
  · simp only [txDecodeCodes, enough.not_gt, isEnd, Nat.succ_ne_self, if_true, if_false]
  · simp only [txDecodeCodes, enough.not_gt, notClear, notEnd, none, if_false]
  · simp only [txDecodeCodes, enough.not_gt, notClear, notEnd, some, if_false]

/-- R105: a data class is the class of one code. -/
theorem code_unique_of_data {k : CodeClass} {x : Ctx} {c c' : Code} (data : isDataClass k = true)
    (h : k.Condition x c) (h' : k.Condition x c') : c = c' := by
  cases k with
  | clear | endCode | badcode => cases data
  | lit => exact BitVec.eq_of_toNat_eq (h.2.symm.trans h'.2)
  | dict => exact h.1.symm.trans h'.1
  | defer => exact BitVec.eq_of_toNat_eq (h.1.trans h'.1.symm)

/-- R105: no code of a data class is CLEAR or END. -/
theorem ne_control_of_data {k : CodeClass} {x : Ctx} {c : Code} (lower : 2 ^ x.m + 2 ≤ x.d)
    (data : isDataClass k = true) (h : k.Condition x c) : c.toNat ≠ 2 ^ x.m ∧ c.toNat ≠ 2 ^ x.m + 1 := by
  cases k with
  | clear | endCode | badcode => cases data
  | lit =>
    obtain ⟨isLit, -⟩ := h
    omega
  | dict =>
    obtain ⟨-, isDict, -⟩ := h
    omega
  | defer =>
    obtain ⟨isNext, -⟩ := h
    omega

/-- From phase LZWDEC with the two levels in step and fewer than `n` bits left, the block comes to the transaction
level's answer (R189, R318). -/
def DecodesRest (n : Nat) : Prop :=
  ∀ {s : State} {table : List (List Byte)} {prev : Option (List Byte)} {emitted payload : List Byte}, RunInv s →
    DecInv s → s.phase = .lzwdec → s.dec.dstate ≠ .done → DecSim s table prev emitted → PayHolds s payload →
    (bitsLeft payload s).length < n →
    DecodesTo s (txDecodeCodes s.lat.m.toNat n (bitsLeft payload s) table prev emitted)

/-- The bits a code leaves. -/
theorem bitsLeft_of_advanced {w : Nat} (enough : s.unp.bitpos.toNat + w ≤ 8 * s.unp.plen.toNat)
    (unp : t.unp = (advanced s w).unp) : bitsLeft payload t = (bitsLeft payload s).drop w := by
  rw [bitsLeft, bitsLeft, unp, advanced_bitpos enough, List.drop_drop]

/-- R181: after CLEAR a span starts. -/
theorem DecodesRest.clear (next : DecodesRest n) (run : RunInv s) (inv : DecInv s) (h : s.phase = .lzwdec)
    (sim : DecSim s table prev emitted) (holds : PayHolds s payload)
    (enough : s.unp.bitpos.toNat + s.decWidth ≤ 8 * s.unp.plen.toNat)
    (fewer : ((bitsLeft payload s).drop s.decWidth).length < n)
    (step : blockStep s = .next ((advanced s s.decWidth).setDec { s.dec with
      d := s.lat.firstFree.setWidth 13, prevValid := false, dstate := .cleared })) :
    DecodesTo s (txDecodeCodes s.lat.m.toNat n ((bitsLeft payload s).drop s.decWidth) [] none emitted) := by
  obtain ⟨small, clear, ended, firstFree⟩ := (inv.ready run h).latch
  have left := bitsLeft_of_advanced (payload := payload) enough (t := (advanced s s.decWidth).setDec _) rfl
  rw [← left] at fewer ⊢
  have rest := next (run.blockMove (blockMove_of_blockStep step)) (inv.blockStep run step) h (by simp)
    (.of_span_start ⟨small, clear, ended, firstFree⟩ rfl rfl sim.count sim.stored) ⟨holds.plen, holds.bytes⟩ fewer
  exact rest.of_step (by simp [h]) step rfl rfl

/-- R183 to R185: after a data code the span goes on. -/
theorem DecodesRest.data {c : Nat} (next : DecodesRest n) (run : RunInv s) (inv : DecInv s) (h : s.phase = .lzwdec)
    (sim : DecSim (advanced s s.decWidth) table prev emitted) (holds : PayHolds s payload)
    (enough : s.unp.bitpos.toNat + s.decWidth ≤ 8 * s.unp.plen.toNat)
    (fewer : ((bitsLeft payload s).drop s.decWidth).length < n) (step : blockStep s = .next t)
    (dataStep : DataStep (advanced s s.decWidth) t c q) :
    DecodesTo s (txDecodeCodes s.lat.m.toNat n ((bitsLeft payload s).drop s.decWidth)
      (txInsert s.lat.m.toNat table prev q.syms) (some q.syms) (emitted ++ q.syms)) := by
  obtain ⟨wid, hgt, count⟩ := run.placeOk (by simp [h]) (by simp [h])
  have grown := sim.data (advanced_ready (inv.ready run h)) ⟨wid, hgt, count⟩ dataStep
  have lat : t.lat = s.lat := dataStep.lat
  obtain ⟨phase, unp, pay⟩ := dataStep.kept
  have left := bitsLeft_of_advanced (payload := payload) enough unp
  have holds : PayHolds t payload := ⟨by rw [unp]; exact holds.plen, by rw [pay]; exact holds.bytes⟩
  rw [← left] at fewer ⊢
  have rest := next (run.blockMove (blockMove_of_blockStep step)) (inv.blockStep run step) (phase.trans h)
    (by simp [dataStep.inserted.reading]) grown holds fewer
  rw [lat] at rest
  exact rest.of_step (by simp [h]) step lat (congrArg UnpRegs.icons unp :)

/-- R189: with fewer bits left than a code has, both levels end in PREMATURE_END. -/
theorem decodesTo_of_short (h : s.phase = .lzwdec) (running : s.dec.dstate ≠ .done)
    (sim : DecSim s table prev emitted) (holds : PayHolds s payload)
    (inside : s.unp.bitpos.toNat ≤ 8 * s.unp.plen.toNat)
    (short : 8 * s.unp.plen.toNat < s.unp.bitpos.toNat + s.decWidth) :
    DecodesTo s (txDecodeCodes s.lat.m.toNat (n + 1) (bitsLeft payload s) table prev emitted) := by
  have few : (bitsLeft payload s).length < Wd (2 ^ s.lat.m.toNat + 2 + table.length) := by
    rw [length_bitsLeft holds, ← sim.size]
    exact Nat.sub_lt_left_of_lt_add inside short
  have step := blockStep_of_lzwdec h running
  rw [exec_decstep_of_short short] at step
  rw [txDecodeCodes, if_pos few]
  exact ⟨1, _, runBlock_of_step (by simp [h]) step 0, aborted_abortState ..⟩

/-- R189: the two levels read the same code, which is of one class. -/
theorem DecodesRest.succ (next : DecodesRest n) : DecodesRest (n + 1) := by
  intro s table prev emitted payload run inv h running sim holds turns
  have busy : s.phase ≠ .idle := by simp [h]
  have length := length_bitsLeft holds
  have wide := inv.three_le_decWidth run h
  obtain short | enough := Nat.lt_or_ge (8 * s.unp.plen.toNat) (s.unp.bitpos.toNat + s.decWidth)
  · exact decodesTo_of_short h running sim holds (inv.cursor h) short
  · have width : Wd (2 ^ s.lat.m.toNat + 2 + table.length) = s.decWidth := by rw [State.decWidth, sim.size]
    have spelled := (sumBits_bitsLeft holds enough).trans (decCode_toNat s).symm
    obtain ⟨onClear, onEnd, onBad, onData⟩ := txDecodeCodes_of_code (n := n) (prev := prev) (emitted := emitted) width
      (by omega) spelled
    have fewer : ((bitsLeft payload s).drop s.decWidth).length < n := by
      rw [List.length_drop]
      omega
    have condition := classify_condition (c := decCode s) (decCtx_ok run inv h)
    obtain ⟨t, runs, code⟩ := exec_decstep_codeStep run inv h enough
    have step := (blockStep_of_lzwdec h running).trans runs
    have sim' : DecSim (advanced s s.decWidth) table prev emitted :=
      ⟨sim.size, sim.entries, sim.prev, sim.count, sim.stored⟩
    generalize classify s.decCtx (decCode s) = k at code condition
    cases code with
    | clear =>
      rw [onClear condition]
      exact next.clear run inv h sim holds enough fewer step
    | ended =>
      have sim'' : DecSim ((advanced s s.decWidth).setDec { s.dec with dstate := .done }) table prev emitted :=
        ⟨sim.size, sim.entries, sim.prev, sim.count, sim.stored⟩
      rw [onEnd condition]
      exact (sim''.ended h rfl).of_step busy step rfl rfl
    | badcode c =>
      obtain ⟨rfl, bad⟩ := condition
      have size := sim.size
      change (_ = s.dec.d.toNat ∧ _) ∨ s.dec.d.toNat < _ at bad
      rw [onBad (by omega) (by omega) (sim.txSeq_of_bad bad), ← size]
      exact ⟨1, _, runBlock_of_step busy step 0, aborted_abortState ..⟩
    | data data condition' dataStep =>
      obtain rfl := code_unique_of_data data condition condition'
      obtain ⟨notClear, notEnd⟩ := ne_control_of_data (inv.ready run h).dict.lower data condition
      rw [onData _ notClear notEnd (sim'.txSeq_of_stands dataStep.stands)]
      exact next.data run inv h sim' holds enough fewer step dataStep

theorem decodesRest (n : Nat) : DecodesRest n := by
  induction n with
  | zero => exact fun _ _ _ _ _ _ turns => absurd turns (Nat.not_lt_zero _)
  | succ n next => exact next.succ

/-! ### The transaction (R306, R318) -/

/-- The block, run from `s`, comes to the outcome the transaction level answers, `good` saying what a success leaves. -/
def RunsTo {α : Type} (good : α → State → Prop) (s : State) : TxResult α → Prop
  | .ok a => ∃ k t, runBlock k s = .next t ∧ good a t
  | .err x => ∃ k t, runBlock k s = .next t ∧ Aborted t x
  | .refused => ∃ k, runBlock k s = .refused .beyondCapacity

theorem RunsTo.of_run {α : Type} {good : α → State → Prop} {r : TxResult α} (runs : runBlock k s = .next t)
    (rest : RunsTo good t r) : RunsTo good s r := by
  cases r with
  | ok | err =>
    obtain ⟨j, u, runs', ends⟩ := rest
    exact ⟨k + j, u, (runBlock_add runs j).trans runs', ends⟩
  | refused =>
    obtain ⟨j, refused⟩ := rest
    exact ⟨k + j, (runBlock_add runs j).trans refused⟩

theorem RunsTo.of_abort {α : Type} {good : α → State → Prop} {x : Cause} (busy : s.phase ≠ .idle)
    (step : blockStep s = .next (abortState x s)) : RunsTo good s (.err x) :=
  ⟨1, _, runBlock_of_step busy step 0, aborted_abortState x s⟩

theorem RunsTo.of_refused {α : Type} {good : α → State → Prop} (busy : s.phase ≠ .idle)
    (step : blockStep s = .refused .beyondCapacity) : RunsTo good s .refused :=
  ⟨1, by rw [runBlock_succ busy, step]; rfl⟩

/-- The outcomes exclude each other, so the number of steps of the one that is answered will do for all. -/
theorem RunsTo.exists_steps {α : Type} {good : α → State → Prop} {r : TxResult α} (runs : RunsTo good s r) :
    ∃ k, (∀ a, r = .ok a → ∃ t, runBlock k s = .next t ∧ good a t) ∧
      (∀ x, r = .err x → ∃ t, runBlock k s = .next t ∧ Aborted t x) ∧
      (r = .refused → runBlock k s = .refused .beyondCapacity) := by
  cases r with
  | ok a =>
    obtain ⟨k, succeeds⟩ := runs
    exact ⟨k, fun _ same => TxResult.ok.inj same ▸ succeeds, nofun, nofun⟩
  | err x =>
    obtain ⟨k, aborts⟩ := runs
    exact ⟨k, nofun, fun _ same => TxResult.err.inj same ▸ aborts, nofun⟩
  | refused =>
    obtain ⟨k, refused⟩ := runs
    exact ⟨k, nofun, nofun, fun _ => refused⟩

/-- What a successful DECODE leaves (R307). -/
structure RasterOut (r : List Byte × Nat) (t : State) : Prop where
  phase      : t.phase = .idle
  status     : t.regs.status = statusSuccess
  outLen     : r.1.length < 2 ^ 32 → t.regs.outLen.toNat = r.1.length
  inConsumed : t.regs.inConsumed.toNat = r.2
  out        : ∀ a (h : a < r.1.length), t.out.read a = r.1[a]

/-- R306: after a passed DEFRAME the decoder starts a span at payload bit 0. -/
theorem blockStep_of_deframed (run : RunInv s) (h : s.phase = .deframe)
    (deframed : txDeframe (s.lat.ilen.toNat + 1) (inputBytes s) [] 0 = .ok (payload, c)) :
    ∃ t, blockStep s = .next t ∧ t.phase = .lzwdec ∧ t.lat = s.lat ∧ t.dec.dstate ≠ .done ∧ DecInv t ∧
      DecSim t [] none [] ∧ PayHolds t payload ∧ t.unp.bitpos = 0 ∧ t.unp.icons.toNat = c := by
  obtain ⟨u, runs, holds, icons, -⟩ := deframe_of_txDeframe_ok deframed
  have same := sameRun_deframe runs
  obtain ⟨small, clear, ended, firstFree⟩ :=
    (run.of_same same).latchOk (by simp [same.phase, h]) (by simp [same.phase, h])
  have step : blockStep s = .next (decoderInit (u.setPhase .lzwdec)) := by
    rw [blockStep_of_deframe h, deframePhase, exec_deframe_of_ok runs, andThen_next_eq, if_pos (same.phase.trans h)]
    rfl
  exact ⟨_, step, rfl, same.lat, show DState.init ≠ .done by decide, .of_deframe run h runs,
    .of_span_start ⟨small, clear, ended, firstFree⟩ rfl rfl rfl (by simp), ⟨holds.plen, holds.bytes⟩,
    (deframe_frame runs).2, icons⟩

theorem blockStep_of_deframe_error {x : Cause} (h : s.phase = .deframe)
    (failed : txDeframe (s.lat.ilen.toNat + 1) (inputBytes s) [] 0 = .error x) :
    blockStep s = .next (abortState x s) := by
  rw [blockStep_of_deframe h, deframePhase, exec_deframe_of_error (deframe_of_txDeframe_error failed)]
  rfl

/-- R190, R307: in phase FINISH the count decides. -/
theorem Decoded.runsTo (decoded : Decoded s t indices) (place : PlaceOk s) (op : s.lat.op = .decode) :
    RunsTo RasterOut t (if indices.length ≠ s.lat.wid.toNat * s.lat.hgt.toNat then .err .decodeCount
      else .ok (txPlace s.lat indices, s.unp.icons.toNat)) := by
  obtain ⟨phase, lat, icons, count, stored⟩ := decoded
  have busy : t.phase ≠ .idle := by simp [phase]
  have step : blockStep t = execFinishDecode t := by
    rw [blockStep_of_finish phase, finishPhase, lat, op]
    rfl
  rw [← place.n]
  rw [execFinishDecode, count, lat, icons] at step
  by_cases whole : indices.length = s.lat.n
  · rw [if_pos whole] at step
    rw [if_neg (not_not.mpr whole)]
    refine ⟨1, _, runBlock_of_step busy step 0, rfl, rfl, fun fits => ?_, rfl, fun a ha => ?_⟩
    · rw [length_txPlace, whole] at fits ⊢
      exact narrow_toNat fits
    · have inRaster := ha
      rw [length_txPlace, whole] at inRaster
      obtain ⟨p, below, rfl⟩ := exists_addrOf_eq place inRaster
      have placed := txPlace_getElem? place whole (below.trans_eq whole.symm)
      rw [List.getElem?_eq_getElem ha] at placed
      exact (stored p (below.trans_eq whole.symm) below).trans (Option.some.inj placed).symm
  · rw [if_neg whole] at step
    rw [if_pos whole]
    exact .of_abort busy step

/-- R306: DEFRAME, the decoder and the count follow a passed CHECK. -/
theorem runsTo_of_deframe {payload : List Byte} {consumed : Nat} (run : RunInv s) (h : s.phase = .deframe)
    (deframed : txDeframe (s.lat.ilen.toNat + 1) (inputBytes s) [] 0 = .ok (payload, consumed))
    {r : TxResult (List Byte × Nat)}
    (failed : ∀ x, txDecodeCodes s.lat.m.toNat (8 * payload.length + 1) (bitsOfBytes payload) [] none [] = .error x →
      r = .err x)
    (decoded : ∀ indices,
      txDecodeCodes s.lat.m.toNat (8 * payload.length + 1) (bitsOfBytes payload) [] none [] = .ok indices →
      r = if indices.length ≠ s.lat.wid.toNat * s.lat.hgt.toNat then .err .decodeCount
        else .ok (txPlace s.lat indices, consumed)) : RunsTo RasterOut s r := by
  obtain ⟨t, step, phase, lat, running, inv, sim, holds, start, rfl⟩ := blockStep_of_deframed run h deframed
  have runT := run.blockMove (blockMove_of_blockStep step)
  have place := runT.placeOk (by simp [phase]) (by simp [phase])
  have op : t.lat.op = .decode := runT.decoding (.inr phase)
  have all : bitsLeft payload t = bitsOfBytes payload := by rw [bitsLeft, start]; rfl
  have decodes := decodesRest (8 * payload.length + 1) runT inv phase running sim holds
    (by rw [all, length_bitsOfBytes]; exact Nat.lt_succ_self _)
  refine .of_run (runBlock_of_step (by simp [h]) step 0) ?_
  rw [← lat] at failed decoded
  rw [all] at decodes
  cases codes : txDecodeCodes t.lat.m.toNat (8 * payload.length + 1) (bitsOfBytes payload) [] none [] with
  | error x =>
    rw [codes] at decodes
    rw [failed x codes]
    exact decodes
  | ok indices =>
    rw [codes] at decodes
    rw [decoded indices codes]
    obtain ⟨k, u, runs, ends⟩ := decodes
    exact .of_run runs (ends.runsTo place op)

theorem overCapacity_eq_beyondCapacity (s : State) (need : Nat) :
    overCapacity s.params (s.lat.wid.toNat * s.lat.hgt.toNat) s.lat.ilen.toNat need = beyondCapacity s need := rfl

/-- R18: from phase CHECK the block comes to what the transaction level's DECODE answers. -/
theorem runsTo_txDecode (run : RunInv s) (check : s.phase = .check) (op : s.lat.op = .decode) :
    RunsTo RasterOut s (txDecode s.params s.lat (inputBytes s)) := by
  have busy : s.phase ≠ .idle := by simp [check]
  have step := blockStep_of_checkDecode check op
  rw [txDecode, length_inputBytes]
  by_cases mcs : mcsLegal s.lat.m.toNat = false
  · rw [checkDecode_of_mcs mcs] at step
    rw [if_pos mcs]
    exact .of_abort busy step
  rw [if_neg mcs]
  rw [Bool.not_eq_false] at mcs
  cases dims : dimsBad s.lat with
  | true =>
    rw [checkDecode_of_dims mcs dims] at step
    rw [if_pos (dimsBad_iff.mp dims)]
    exact .of_abort busy step
  | false =>
    rw [if_neg (dimsBad_iff.not.mp (ne_true_of_eq_false dims)),
      overCapacity_eq_beyondCapacity]
    cases within : beyondCapacity s (s.lat.wid.toNat * s.lat.hgt.toNat) with
    | true =>
      rw [checkDecode_of_beyond mcs dims within] at step
      rw [if_pos rfl]
      exact .of_refused busy step
    | false =>
      rw [checkDecode_of_passed mcs dims within] at step
      rw [if_neg Bool.false_ne_true]
      have runT := run.blockMove (blockMove_of_blockStep step)
      refine .of_run (runBlock_of_step busy step 0) ?_
      cases deframed : txDeframe (s.lat.ilen.toNat + 1) (inputBytes s) [] 0 with
      | error x => exact .of_abort (by simp) (blockStep_of_deframe_error rfl deframed)
      | ok framed =>
        obtain ⟨payload, consumed⟩ := framed
        exact runsTo_of_deframe runT rfl deframed
          (fun x failed => by simp only [show txDecodeCodes s.lat.m.toNat _ _ _ _ _ = _ from failed])
          fun indices decoded => by simp only [show txDecodeCodes s.lat.m.toNat _ _ _ _ _ = _ from decoded]; rfl

/-- Settles O57. -/
theorem decodeRefinesTransaction : Obligations.DecodeRefinesTransaction := by
  intro s run check op
  obtain ⟨k, succeeds, aborts, refused⟩ := (runsTo_txDecode run check op).exists_steps
  refine ⟨k, fun raster consumed answer => ?_, fun x answer => ?_, refused⟩
  · obtain ⟨t, runs, phase, status, outLen, inConsumed, out⟩ := succeeds _ answer
    exact ⟨t, runs, phase, status, outLen, inConsumed, out⟩
  · obtain ⟨t, runs, phase, status, outLen, inConsumed⟩ := aborts x answer
    exact ⟨t, runs, phase, status, outLen, inConsumed⟩

end Sys2Proof.Machine

/-! What an ENCODE leaves in OUT (R142 to R147), as the transaction level writes it: the bits the packer has taken, and
the frame FLUSH puts around their bytes. -/

namespace Sys2Proof.Machine

variable {s t u s' t' : State} {bits bits' : List Bool} {payload : List Byte}

/-! ### The bits taken (R143, R146) -/

/-- Where OPLEN has room for them, the packer took exactly `bits` from `s` to `t`. -/
def Emits (s t : State) (bits : List Bool) : Prop :=
  accClean s → packRoom s (bits.length + 12) → accClean t ∧ packedLen t = packedLen s + bits.length ∧
    (∀ j, j < packedLen s → packedBit t j = packedBit s j) ∧
    ∀ i (h : i < bits.length), packedBit t (packedLen s + i) = bits[i]

theorem Emits.refl (s : State) : Emits s s [] := fun clean _ => ⟨clean, rfl, fun _ _ => rfl, by simp⟩

theorem Emits.trans (first : Emits s t bits) (second : Emits t u bits') : Emits s u (bits ++ bits') := by
  intro clean room
  rw [packRoom, List.length_append] at room
  obtain ⟨clean, len, kept, added⟩ := first clean (by rw [packRoom]; omega)
  obtain ⟨clean, len', kept', added'⟩ := second clean (by rw [packRoom]; omega)
  refine ⟨clean, by rw [len', len, List.length_append, Nat.add_assoc], fun j hj => ?kept, fun i hi => ?added⟩
  case kept => rw [kept' j (by omega), kept j hj]
  case added =>
    rw [List.getElem_append]
    split_ifs with before
    · rw [kept' _ (by omega), added i before]
    · obtain ⟨k, rfl⟩ := Nat.exists_eq_add_of_le (Nat.le_of_not_lt before)
      rw [List.length_append] at hi
      rw [← Nat.add_assoc, ← len, added' k (by omega)]
      exact getElem_congr_idx (by omega)

/-- What the packer took shows in OUT and the packer's cursor alone. -/
theorem Emits.congr (h : Emits s t bits) (before : s'.out = s.out ∧ s'.pk = s.pk)
    (after : t'.out = t.out ∧ t'.pk = t.pk) : Emits s' t' bits := by
  obtain ⟨out, pk⟩ := before
  obtain ⟨out', pk'⟩ := after
  simp only [Emits, packRoom, packedLen, packedBit, accClean, out, pk, out', pk'] at *
  exact h

/-- R236: EMIT takes its code's bits at `Wd(DSIZE)`. -/
theorem emits_emitCode (c : Code) (s : State) : Emits s (emitCode c s) (codeBits c.toNat (Wd s.enc.dsize.toNat)) := by
  intro clean room
  have narrower : packRoom s 12 := (Nat.add_le_add_left (Nat.le_add_left 12 _) _).trans_lt room
  obtain ⟨len, clean', kept, added, -, -⟩ := appends_emitCode clean narrower c
  refine ⟨clean', by rw [len, length_codeBits], kept, fun i hi => ?_⟩
  rw [length_codeBits] at hi
  rw [added i hi]
  simp [codeBits]

theorem emits_sendData (c : Code) (s : State) : Emits s (sendData c s) (codeBits c.toNat (Wd s.enc.dsize.toNat)) :=
  (emits_emitCode c s).congr ⟨rfl, rfl⟩ ⟨rfl, rfl⟩

/-- R242: the reset takes CLEAR's. -/
theorem emits_clearFull (latch : LatchOk s) :
    Emits s (clearFull s) (codeBits (2 ^ s.lat.m.toNat) (Wd s.enc.dsize.toNat)) := by
  have emits := (emits_emitCode (s.lat.clear.setWidth 12) s).congr (t' := clearFull s) ⟨rfl, rfl⟩ ⟨rfl, rfl⟩
  rwa [BitVec.toNat_setWidth_of_le (by decide), latch.clear] at emits

/-- R240, R248: short of a reset INSERT_E takes nothing. -/
theorem emits_insertE_of_kept (p : Code) (c : Byte) (kept : ¬(s.enc.esize.toNat = 4095 ∧ s.lat.nr = false)) :
    Emits s (insertE p c s) [] := by
  obtain below | full := Nat.lt_or_ge s.enc.esize.toNat 4096
  · rw [insertE_of_below p c below, if_neg kept]
    exact (Emits.refl s).congr ⟨rfl, rfl⟩ ⟨rfl, rfl⟩
  · rw [insertE_of_full p c full]
    exact .refl s

/-- R242: the insertion that fills the dictionary takes CLEAR's bits where the mode resets. -/
theorem emits_insertE_of_reset (p : Code) (c : Byte) (latch : LatchOk s) (last : s.enc.esize.toNat = 4095)
    (mode : s.lat.nr = false) :
    Emits s (insertE p c s) (codeBits (2 ^ s.lat.m.toNat) (Wd s.enc.dsize.toNat)) := by
  rw [insertE_of_below p c (by omega), if_pos ⟨last, mode⟩]
  have latch' : LatchOk (storeEntry p c s) := ⟨latch.small, latch.clear, latch.endCode, latch.firstFree⟩
  exact (emits_clearFull latch').congr ⟨rfl, rfl⟩ ⟨rfl, rfl⟩

/-! ### The bytes taken (R74, R147) -/

theorem length_bytesOfBits (bits : List Bool) : (bytesOfBits bits).length = ceilDiv bits.length 8 := by
  rw [bytesOfBits, List.length_map, List.length_range]

/-- R74: bit `i` of payload byte `j`, the bits past the last one 0. -/
theorem bytesOfBits_getLsbD (bits : List Bool) {i j : Nat} (h : j < (bytesOfBits bits).length) (hi : i < 8) :
    (bytesOfBits bits)[j].getLsbD i = bits.getD (8 * j + i) false := by
  simp only [bytesOfBits, List.getElem_map, List.getElem_range, BitVec.getLsbD_ofNat, decide_eq_true hi, Bool.true_and]
  exact testBit_sumBits (fun i => bits.getD (8 * j + i) false) hi

/-- All the bits taken so far (R143). -/
structure Packed (s : State) (bits : List Bool) : Prop where
  clean : accClean s
  len   : packedLen s = bits.length
  bit   : ∀ i (h : i < bits.length), packedBit s i = bits[i]

theorem Emits.packed (h : Emits s t bits) (clean : accClean s) (empty : packedLen s = 0)
    (room : bits.length + 12 < 8 * 2 ^ 32) : Packed t bits := by
  obtain ⟨clean, len, -, added⟩ := h clean (by rwa [packRoom, empty, Nat.zero_add])
  simp only [empty, Nat.zero_add] at len added
  exact ⟨clean, len, added⟩

theorem Packed.flushedLen_eq (packed : Packed s bits) : flushedLen s = (bytesOfBits bits).length := by
  have := nacc_le_seven s
  rw [length_bytesOfBits, ← packed.len, packedLen, flushedLen, ceilDiv]
  split_ifs <;> omega

/-- R49: past the bits taken ACC is 0. -/
theorem Packed.getD (packed : Packed s bits) {k : Nat} (inPayload : k / 8 ≤ s.pk.oplen.toNat) :
    packedBit s k = bits.getD k false := by
  obtain taken | past := Nat.lt_or_ge k bits.length
  · rw [packed.bit k taken, List.getD_eq_getElem _ _ taken]
  · have len := packed.len
    rw [packedLen] at len
    have zero : s.pk.acc.toNat < 2 ^ (k % 8) := packed.clean.trans_le (Nat.pow_le_pow_right Nat.two_pos (by omega))
    rw [List.getD_eq_default _ _ past, packedBit, if_neg (by omega), ← BitVec.testBit_toNat,
      Nat.testBit_lt_two_pow zero]

/-- R147: FLUSH leaves the payload's bytes at their places. -/
theorem Packed.read_flushOut (packed : Packed s bits) (fits : flushedLen s < 2 ^ 32) {j : Nat}
    (h : j < (bytesOfBits bits).length) : (flushOut s).out.read (payloadAddr j) = (bytesOfBits bits)[j] := by
  refine BitVec.eq_of_getLsbD_eq fun i hi => ?_
  have within := h
  rw [← packed.flushedLen_eq] at within
  have byte : (8 * j + i) / 8 = j := by omega
  have bit : (8 * j + i) % 8 = i := by omega
  have reach : j ≤ s.pk.oplen.toNat := by
    rw [flushedLen] at within
    split_ifs at within <;> omega
  rw [bytesOfBits_getLsbD bits h hi, ← packed.getD (byte.trans_le reach), packedBit, byte, bit]
  split_ifs with complete
  · rw [read_flushOut_other fits]
    · have := payloadAddr_lt_terminator j
      have := Nat.div_le_div_right (c := 255) (Nat.add_le_add_right (Nat.succ_le_of_lt within) 254)
      rw [subBlocks] at *
      omega
    · exact fun i _ => payloadAddr_ne_lengthAddr j i
    · exact fun _ => payloadAddr_inj.not.mpr complete.ne
  · obtain rfl : j = s.pk.oplen.toNat := by omega
    have partialByte : 0 < s.pk.nacc.toNat := by
      rw [flushedLen] at within
      split_ifs at within
      · assumption
      · omega
    rw [read_flushOut_partial fits partialByte]

/-! ### The frame (R108, R147) -/

/-- `f` holds the sub-blocks of `payload` and the terminator, byte by byte as FLUSH places them. -/
structure Frames (f : Nat → Byte) (payload : List Byte) : Prop where
  bytes      : ∀ j (h : j < payload.length), f (payloadAddr j) = payload[j]
  lengths    : ∀ i, i < subBlocks payload.length → (f (256 * i)).toNat = min 255 (payload.length - 255 * i)
  terminator : f (payload.length + subBlocks payload.length) = 0

/-- R147: behind its first sub-block a frame is the frame of the rest. -/
theorem Frames.drop {f : Nat → Byte} (h : Frames f payload) (nonempty : payload ≠ []) :
    Frames (fun a => f (1 + min 255 payload.length + a)) (payload.drop 255) := by
  have positive := List.length_pos_iff.mpr nonempty
  refine ⟨fun j hj => ?bytes, fun i hi => ?lengths, ?terminator⟩
  all_goals rw [List.length_drop] at *
  case bytes =>
    rw [List.getElem_drop, ← h.bytes]
    congr 1
    rw [payloadAddr_eq, payloadAddr_eq]
    omega
  case lengths =>
    rw [subBlocks] at hi
    have here := h.lengths (i + 1) (by rw [subBlocks]; omega)
    convert here using 2
    · congr 1
      omega
    · omega
  case terminator =>
    convert h.terminator using 2
    rw [subBlocks, subBlocks]
    omega

/-- R147: so `f` holds the frame. -/
theorem Frames.txFrame_getElem? {f : Nat → Byte} (h : Frames f payload) {a : Nat} (ha : a < (txFrame payload).length) :
    (txFrame payload)[a]? = some (f a) := by
  induction count : payload.length using Nat.strong_induction_on generalizing payload f a with
  | _ n ih =>
    subst count
    by_cases empty : payload = []
    · subst empty
      obtain rfl : a = 0 := Nat.lt_one_iff.mp ha
      exact congrArg some h.terminator.symm
    · have positive := List.length_pos_iff.mpr empty
      rw [txFrame_of_ne_nil empty] at ha ⊢
      cases a with
      | zero =>
        have first := h.lengths 0 (by rw [subBlocks]; omega)
        refine congrArg some (BitVec.eq_of_toNat_eq ?_)
        rw [BitVec.toNat_ofNat, Nat.mod_eq_of_lt (by omega)]
        exact first.symm
      | succ b =>
        rw [List.length_cons, List.length_append, List.length_take] at ha
        rw [List.getElem?_cons_succ]
        obtain inBlock | ⟨c, rfl⟩ := (Nat.lt_or_ge b (min 255 payload.length)).imp_right Nat.exists_eq_add_of_le
        · have inPayload : b < payload.length := by omega
          have place : payloadAddr b = b + 1 := by rw [payloadAddr_eq, Nat.div_eq_of_lt (by omega), Nat.add_zero]
          rw [List.getElem?_append_left (by rwa [List.length_take]), List.getElem?_take_of_lt (by omega),
            List.getElem?_eq_getElem inPayload, ← h.bytes b inPayload, place]
        · have rest := ih _ (by rw [List.length_drop]; omega) (h.drop empty) (a := c) (by omega) rfl
          rw [List.getElem?_append_right (by rw [List.length_take]; omega), List.length_take, Nat.add_sub_cancel_left,
            rest]
          congr 2
          omega

theorem length_txFrame (payload : List Byte) :
    (txFrame payload).length = payload.length + subBlocks payload.length + 1 := by
  induction count : payload.length using Nat.strong_induction_on generalizing payload with
  | _ n ih =>
    subst count
    by_cases empty : payload = []
    · subst empty
      rfl
    · have positive := List.length_pos_iff.mpr empty
      have rest := ih _ (by rw [List.length_drop]; omega) (payload.drop 255) rfl
      rw [txFrame_of_ne_nil empty, List.length_cons, List.length_append, rest, List.length_take, List.length_drop,
        subBlocks, subBlocks]
      omega

/-- R147: FLUSH frames the bytes of the bits taken. -/
theorem Packed.frames_flushOut (packed : Packed s bits) (fits : flushedLen s < 2 ^ 32) :
    Frames (flushOut s).out.read (bytesOfBits bits) := by
  refine ⟨fun j => packed.read_flushOut fits, ?_, ?_⟩ <;> rw [← packed.flushedLen_eq]
  · exact fun i => read_flushOut_length fits
  · exact read_flushOut_terminator fits

/-- R147: where 32 bits hold its length, FLUSH leaves the frame in OUT and its length in FLEN. -/
theorem Packed.flushed (packed : Packed s bits) (fits : (txFrame (bytesOfBits bits)).length < 2 ^ 32) :
    (flushOut s).pk.flen.toNat = (txFrame (bytesOfBits bits)).length ∧
    ∀ a (h : a < (txFrame (bytesOfBits bits)).length), (flushOut s).out.read a = (txFrame (bytesOfBits bits))[a] := by
  have length := length_txFrame (bytesOfBits bits)
  rw [length, ← packed.flushedLen_eq] at fits
  have payloadFits : flushedLen s < 2 ^ 32 := by omega
  refine ⟨?_, fun a ha => ?_⟩
  · rw [flushOut_flen payloadFits, narrow_toNat fits, length, packed.flushedLen_eq]
  · have framed := (packed.frames_flushOut payloadFits).txFrame_getElem? ha
    rw [List.getElem?_eq_getElem ha] at framed
    exact (Option.some.inj framed).symm

/-- OPLEN has room for every bit of a stream whose frame 32 bits can count. -/
theorem room_of_frame_fits (fits : (txFrame (bytesOfBits bits)).length < 2 ^ 32) : bits.length + 12 < 8 * 2 ^ 32 := by
  rw [length_txFrame, length_bytesOfBits, ceilDiv, subBlocks] at fits
  omega

end Sys2Proof.Machine

/-! The step level of an ENCODE is the transaction level's function (R18, R318): index by index, the encoder's
dictionary spells the transaction level's table, and the packer takes the bits of its codes. -/

namespace Sys2Proof.Machine

variable {s t u : State} {m size k k' : Nat} {pre : Memory 12} {suf : Memory 8} {S W : List Byte} {c : Byte}
  {table : List (List Byte)} {rest : List Byte}

/-! ### A sequence has one code (R247) -/

theorem append_singleton_ne {b c : Byte} (h : S ≠ []) : S ++ [c] ≠ [b] := by
  simpa [List.append_eq_singleton_iff] using fun empty => absurd empty h

/-- R43, R247: entries being unique, so are the codes of their sequences. -/
theorem Spells.code_unique (unique : EntriesUnique m size pre suf) (small : m ≤ 8) (h : Spells m size pre suf k S)
    (h' : Spells m size pre suf k' S) : k = k' := by
  have literals := Nat.pow_le_pow_right Nat.two_pos small
  induction h generalizing k' with
  | literal k isLit =>
    generalize same : [BitVec.ofNat 8 k] = S at h'
    cases h' with
    | literal _ isLit' =>
      have value := congrArg BitVec.toNat (List.singleton_inj.mp same)
      rwa [BitVec.toNat_ofNat, BitVec.toNat_ofNat, Nat.mod_eq_of_lt (by omega), Nat.mod_eq_of_lt (by omega)] at value
    | entry _ P _ _ spelled =>
      exact absurd same.symm (append_singleton_ne spelled.ne_nil)
  | entry k P first below spelled ih =>
    generalize same : P ++ [suf.read k] = S at h'
    cases h' with
    | literal _ isLit' =>
      exact absurd same (append_singleton_ne spelled.ne_nil)
    | entry _ P' first' below' spelled' =>
      obtain ⟨rfl, symbol⟩ := List.append_inj' same rfl
      exact unique _ _ first below first' below' (BitVec.eq_of_toNat_eq (ih spelled')) (List.singleton_inj.mp symbol)

/-! ### The encoder and the transaction level in step -/

/-- `seq(k)` in the encoder's dictionary. -/
def encSpells (s : State) (k : Nat) (S : List Byte) : Prop :=
  Spells s.lat.m.toNat s.enc.esize.toNat s.prefixMem s.suffixMem k S

/-- The encoder is between two indices with the dictionary `table` and the match `W`. -/
structure EncSim (s : State) (table : List (List Byte)) (W : List Byte) : Prop where
  size    : s.enc.esize.toNat = 2 ^ s.lat.m.toNat + 2 + table.length
  entries : ∀ i (h : i < table.length), encSpells s (2 ^ s.lat.m.toNat + 2 + i) table[i]
  cur     : encSpells s s.enc.cur.toNat W

/-- R231: what an entry stands for is in the table. -/
theorem EncSim.mem_of_entry (sim : EncSim s table W) (first : 2 ^ s.lat.m.toNat + 2 ≤ k)
    (below : k < s.enc.esize.toNat) (spelled : encSpells s k S) : S ∈ table := by
  obtain ⟨i, rfl⟩ := Nat.exists_eq_add_of_le first
  rw [sim.size] at below
  have held : i < table.length := by omega
  exact List.mem_of_getElem ((sim.entries i held).unique spelled).symm

/-- R51: the entry found stands for the match and the index after it. -/
theorem EncSim.of_found (sim : EncSim s table W) (latch : LatchOk s) (found : lookup s c = some k) :
    encSpells s k (W ++ [c]) ∧ W ++ [c] ∈ table := by
  obtain ⟨first, below, pre, rfl⟩ := lookup_some found
  rw [latch.firstFree] at first
  have spelled : encSpells s k (W ++ [s.suffixMem.read k]) := .entry k W first below (pre ▸ sim.cur)
  exact ⟨spelled, sim.mem_of_entry first below spelled⟩

/-- R51, R247: with no entry found the table does not hold them. -/
theorem EncSim.of_absent (sim : EncSim s table W) (ok : EncOk s) (latch : LatchOk s) (absent : lookup s c = none) :
    W ++ [c] ∉ table := by
  intro held
  obtain ⟨i, below, same⟩ := List.getElem_of_mem held
  have spelled := sim.entries i below
  have new := lookup_none absent (2 ^ s.lat.m.toNat + 2 + i) (latch.firstFree.trans_le (Nat.le_add_right _ i))
  rw [same] at spelled
  generalize seq : W ++ [c] = S at spelled
  generalize 2 ^ s.lat.m.toNat + 2 + i = k at *
  cases spelled with
  | literal =>
    exact absurd seq (append_singleton_ne sim.cur.ne_nil)
  | entry _ P _ below spelled =>
    obtain ⟨rfl, symbol⟩ := List.append_inj' seq rfl
    refine new below ⟨BitVec.eq_of_toNat_eq ?_, (List.singleton_inj.mp symbol).symm⟩
    exact spelled.code_unique ok.unique latch.small sim.cur

theorem EncSim.matched (sim : EncSim s table W) (latch : LatchOk s) : Matched s.lat.m.toNat table W := by
  have literals := Nat.pow_le_pow_right Nat.two_pos latch.small
  have cur := sim.cur
  generalize s.enc.cur.toNat = k at cur
  cases cur with
  | literal _ isLit =>
    refine .inl ⟨_, rfl, ?_⟩
    rwa [BitVec.toNat_ofNat, Nat.mod_eq_of_lt (by omega)]
  | entry _ P first below spelled =>
    refine .inr ⟨?_, sim.mem_of_entry first below (.entry _ P first below spelled)⟩
    rw [List.length_append]
    exact Nat.succ_le_succ (List.length_pos_iff.mpr spelled.ne_nil)

/-- R231: CUR is the match's code. -/
theorem EncSim.txCode_eq (sim : EncSim s table W) (ok : EncOk s) (latch : LatchOk s) :
    txCode s.lat.m.toNat table W = s.enc.cur.toNat := by
  have spelled : encSpells s (txCode s.lat.m.toNat table W) W := by
    obtain ⟨b, rfl, isLit, code⟩ | ⟨i, code, below, same⟩ := (sim.matched latch).code
    · have literal : encSpells s b.toNat [BitVec.ofNat 8 b.toNat] := .literal _ isLit
      rwa [BitVec.ofNat_toNat, BitVec.setWidth_eq, ← code] at literal
    · rw [List.getElem?_eq_getElem below, Option.some_inj] at same
      have entry := sim.entries i below
      rwa [same, ← code] at entry
  exact spelled.code_unique ok.unique latch.small sim.cur

/-- R238: the match extended. -/
theorem EncSim.extended (sim : EncSim s table W) (ok : EncOk s) (latch : LatchOk s) (found : lookup s c = some k) :
    EncSim (nextIndex (setCur (narrow 12 k) s)) table (W ++ [c]) := by
  obtain ⟨-, below, -⟩ := lookup_some found
  have cur : (narrow 12 k).toNat = k := narrow_toNat (below.trans_le ok.dict.upper)
  obtain ⟨spelled, -⟩ := sim.of_found latch found
  refine ⟨sim.size, sim.entries, ?_⟩
  show Spells _ _ _ _ (narrow 12 k).toNat _
  rwa [cur]

/-- The match that starts at an index (R239). -/
theorem encSpells_of_symbol (cur : t.enc.cur.toNat = c.toNat) (symbol : c.toNat < 2 ^ t.lat.m.toNat) :
    encSpells t t.enc.cur.toNat [c] := by
  have literal : encSpells t c.toNat [BitVec.ofNat 8 c.toNat] := .literal _ symbol
  rwa [BitVec.ofNat_toNat, BitVec.setWidth_eq, ← cur] at literal

/-- R240: the entry inserted stands for the match and the index after it. -/
theorem EncSim.inserted (sim : EncSim s table W) (ok : EncOk s) (lat : t.lat = s.lat)
    (esize : t.enc.esize.toNat = s.enc.esize.toNat + 1)
    (pre : t.prefixMem = s.prefixMem.write s.enc.esize.toNat s.enc.cur)
    (suf : t.suffixMem = s.suffixMem.write s.enc.esize.toNat c) (cur : encSpells t t.enc.cur.toNat [c]) :
    EncSim t (table ++ [W ++ [c]]) [c] := by
  have kept {k : Nat} {S : List Byte} (spelled : encSpells s k S) : encSpells t k S := by
    rw [encSpells, lat, esize, pre, suf]
    exact spelled.mono (Nat.le_succ _) fun j hj =>
      ⟨Memory.read_write_other _ hj.ne _, Memory.read_write_other _ hj.ne _⟩
  have named : encSpells t s.enc.esize.toNat (W ++ [c]) := by
    have lower : 2 ^ t.lat.m.toNat + 2 ≤ s.enc.esize.toNat := lat ▸ ok.dict.lower
    have spelled := Spells.entry (pre := t.prefixMem) (suf := t.suffixMem) (size := t.enc.esize.toNat) _ W lower
      (esize ▸ Nat.lt_succ_self _) (by rw [pre, Memory.read_write_same, ← pre]; exact kept sim.cur)
    rwa [suf, Memory.read_write_same, ← suf] at spelled
  refine ⟨?_, fun i hi => ?_, cur⟩
  · rw [esize, lat, sim.size, List.length_append]
    rfl
  · rw [lat, List.getElem_append]
    split_ifs with held
    · exact kept (sim.entries i held)
    · rw [List.length_append] at hi
      obtain rfl : i = table.length := Nat.le_antisymm (Nat.le_of_lt_succ hi) (Nat.le_of_not_lt held)
      rw [← sim.size]
      simpa using named

theorem EncSim.frozen (sim : EncSim s table W) (lat : t.lat = s.lat) (esize : t.enc.esize = s.enc.esize)
    (pre : t.prefixMem = s.prefixMem) (suf : t.suffixMem = s.suffixMem) (cur : encSpells t t.enc.cur.toNat [c]) :
    EncSim t table [c] := by
  obtain ⟨size, entries, -⟩ := sim
  refine ⟨?_, ?_, cur⟩
  · rwa [esize, lat]
  · simp only [encSpells, esize, lat, pre, suf]
    exact entries

/-- R242: after the reset there are literals only. -/
theorem EncSim.start (esize : t.enc.esize.toNat = 2 ^ t.lat.m.toNat + 2) (cur : encSpells t t.enc.cur.toNat [c]) :
    EncSim t [] [c] := ⟨esize, by simp, cur⟩

/-! ### The bits of an index and of the end (R237 to R246) -/

theorem sendData_dsize_toNat (c : Code) (s : State) :
    (sendData c s).enc.dsize.toNat = txDataSent s.enc.dsize.toNat s.enc.firstd := by
  rw [sendData_frame]
  exact dataSent_dsize_toNat s

theorem Emits.nextIndex {bits : List Bool} (h : Emits s t bits) : Emits s (nextIndex t) bits :=
  h.congr ⟨rfl, rfl⟩ ⟨rfl, rfl⟩

theorem Emits.setCur {bits : List Bool} (h : Emits s t bits) (cur : Code) : Emits s (setCur cur t) bits :=
  h.congr ⟨rfl, rfl⟩ ⟨rfl, rfl⟩

theorem Emits.setPhase {bits : List Bool} (h : Emits s t bits) (p : Phase) : Emits s (t.setPhase p) bits :=
  h.congr ⟨rfl, rfl⟩ ⟨rfl, rfl⟩

/-- R239: a MISS that does not reset emits the match's code. -/
theorem emits_miss_of_kept (c : Byte) (kept : ¬(s.enc.esize.toNat = 4095 ∧ s.lat.nr = false)) :
    Emits s (nextIndex (miss c s)) (codeBits s.enc.cur.toNat (Wd s.enc.dsize.toNat)) := by
  have kept' : ¬((sendData s.enc.cur s).enc.esize.toNat = 4095 ∧ (sendData s.enc.cur s).lat.nr = false) := by
    rwa [sendData_frame]
  have emits := (emits_sendData s.enc.cur s).trans (emits_insertE_of_kept s.enc.cur c kept')
  rw [List.append_nil] at emits
  exact (emits.setCur _).nextIndex

/-- R239, R242: one that resets emits CLEAR after it. -/
theorem emits_miss_of_reset (c : Byte) (latch : LatchOk s) (last : s.enc.esize.toNat = 4095) (mode : s.lat.nr = false) :
    Emits s (nextIndex (miss c s)) (codeBits s.enc.cur.toNat (Wd s.enc.dsize.toNat) ++
      codeBits (2 ^ s.lat.m.toNat) (Wd (txDataSent s.enc.dsize.toNat s.enc.firstd))) := by
  have lat : (sendData s.enc.cur s).lat = s.lat := (sameRun_sendData ..).lat
  have latch' : LatchOk (sendData s.enc.cur s) := by
    obtain ⟨small, clear, ended, firstFree⟩ := latch
    constructor <;> rwa [lat]
  have esize : (sendData s.enc.cur s).enc.esize.toNat = 4095 := by rwa [sendData_frame]
  have reset := emits_insertE_of_reset s.enc.cur c latch' esize (lat ▸ mode)
  rw [lat, sendData_dsize_toNat] at reset
  exact (((emits_sendData s.enc.cur s).trans reset).setCur _).nextIndex

/-- R244, R246: FINAL and E_END. -/
theorem emits_closed (latch : LatchOk s) : Emits s (closed s) (codeBits s.enc.cur.toNat (Wd s.enc.dsize.toNat) ++
    codeBits (2 ^ s.lat.m.toNat + 1) (Wd (txDataSent s.enc.dsize.toNat s.enc.firstd))) := by
  have ended := emits_emitCode (s.lat.endCode.setWidth 12) (sendData s.enc.cur s)
  rw [BitVec.toNat_setWidth_of_le (by decide), latch.endCode, sendData_dsize_toNat] at ended
  exact ((emits_sendData s.enc.cur s).trans ended).setPhase .flush

/-- R245: E_CLEAR_START is the first code. -/
theorem emits_opened (latch : LatchOk s) :
    Emits (encoderInit s) (opened s) (codeBits (2 ^ s.lat.m.toNat) (Wd (2 ^ s.lat.m.toNat + 2))) := by
  have emits := emits_emitCode (s.lat.clear.setWidth 12) (encoderInit s)
  have size : (encoderInit s).enc.dsize.toNat = 2 ^ s.lat.m.toNat + 2 := firstFree_setWidth_toNat latch
  rw [BitVec.toNat_setWidth_of_le (by decide), latch.clear, size] at emits
  exact emits.congr (t := emitCode _ _) ⟨rfl, rfl⟩ ⟨rfl, rfl⟩

/-! ### The indices one after another -/

/-- The indices the encoder has before it. -/
def indicesLeft (s : State) : List Byte := (inputBytes s).drop s.enc.ipos.toNat

theorem inputBytes_of_same (same : SameRun s t) : inputBytes t = inputBytes s := by
  rw [inputBytes, inputBytes, same.lat, same.inp]

theorem indicesLeft_eq_cons (left : s.enc.ipos.toNat < s.lat.ilen.toNat) :
    indicesLeft s = s.inp.read s.enc.ipos.toNat :: (inputBytes s).drop (s.enc.ipos.toNat + 1) := by
  have inside : s.enc.ipos.toNat < (inputBytes s).length := left.trans_eq (length_inputBytes s).symm
  rw [indicesLeft, List.drop_eq_getElem_cons inside, inputBytes_getElem]

theorem streamBits_cons (c w : Nat) (codes : List (Nat × Nat)) :
    streamBits ((c, w) :: codes) = codeBits c w ++ streamBits codes := rfl

/-- From `s` phase ENCODE goes through to phase FLUSH, the packer taking `bits` (R237 to R246). -/
def EncodesTo (s : State) (bits : List Bool) : Prop :=
  ∃ k t, runBlock k s = .next t ∧ t.phase = .flush ∧ t.lat = s.lat ∧ Emits s t bits

theorem EncodesTo.of_step {bits bits' : List Bool} (busy : s.phase ≠ .idle) (step : blockStep s = .next t)
    (lat : t.lat = s.lat) (emits : Emits s t bits) (rest : EncodesTo t bits') : EncodesTo s (bits ++ bits') := by
  obtain ⟨k, u, runs, phase, lat', emits'⟩ := rest
  exact ⟨k + 1, u, (runBlock_of_step busy step k).trans runs, phase, lat'.trans lat, emits.trans emits'⟩

/-- R237: with an index left and no entry found, MISS. -/
theorem blockStep_of_absent (h : s.phase = .encode) (left : s.enc.ipos.toNat < s.lat.n)
    (absent : lookup s (s.inp.read s.enc.ipos.toNat) = none) :
    blockStep s = .next (nextIndex (miss (s.inp.read s.enc.ipos.toNat) s)) :=
  (blockStep_of_index h left).trans (exec_encStep_of_miss left absent)

/-- From phase ENCODE with the two levels in step and `rest` left, the packer takes the bits of the codes that remain
(R237, R318). -/
def EncodesRest (rest : List Byte) : Prop :=
  ∀ {s : State} {table : List (List Byte)} {W : List Byte}, RunInv s → EncOk s → s.phase = .encode →
    EncSim s table W → indicesLeft s = rest →
    EncodesTo s (streamBits (txCodes s.lat.m.toNat s.lat.nr rest table W s.enc.dsize.toNat s.enc.firstd))

theorem encodesRest_nil : EncodesRest [] := by
  intro s table W run ok h sim left
  have latch := run.latchOk (by simp [h]) (by simp [h])
  have all : s.lat.n ≤ s.enc.ipos.toNat := by
    rwa [indicesLeft, List.drop_eq_nil_iff, length_inputBytes, (run.encode_length (.inl h)).2] at left
  have emits := emits_closed latch
  rw [txCodes, sim.txCode_eq ok latch, streamBits_cons, streamBits_cons, ← List.append_assoc, streamBits,
    List.flatMap_nil, List.append_nil]
  exact ⟨1, closed s, runBlock_of_step (by simp [h]) (blockStep_of_encoded h all) 0, rfl, closed_lat s, emits⟩

/-- R238: an index that extends the match. -/
theorem EncodesRest.hit (next : EncodesRest rest) (run : RunInv s) (ok : EncOk s) (h : s.phase = .encode)
    (sim : EncSim s table W) (more : s.enc.ipos.toNat < s.lat.n)
    (left : (inputBytes s).drop (s.enc.ipos.toNat + 1) = rest)
    (symbol : s.inp.read s.enc.ipos.toNat = c)
    (found : lookup s c = some k) : EncodesTo s (streamBits
      (txCodes s.lat.m.toNat s.lat.nr (c :: rest) table W s.enc.dsize.toNat s.enc.firstd)) := by
  subst symbol
  have latch := run.latchOk (by simp [h]) (by simp [h])
  have fits := (run.encode_length (.inl h)).2 ▸ s.lat.ilen.isLt
  have step := (blockStep_of_index h more).trans (exec_encStep_of_hit more found)
  have same := sameRun_extended k s
  have ipos : (nextIndex (setCur (narrow 12 k) s)).enc.ipos.toNat = s.enc.ipos.toNat + 1 := nextIndex_ipos fits more
  rw [txCodes, if_pos (sim.of_found latch found).2]
  have rest := next (run.of_same same) (ok.extended latch fits more found) (same.phase.trans h)
    (sim.extended ok latch found) (by rw [indicesLeft, inputBytes_of_same same, ipos, left])
  exact rest.of_step (by simp [h]) step same.lat (bits := []) (((Emits.refl s).setCur _).nextIndex)

/-- R239, R240, R242: an index that ends the match, and starts the next one with the entry inserted, with the dictionary
full, or with the dictionary reset. -/
theorem EncodesRest.miss (next : EncodesRest rest) (run : RunInv s) (ok : EncOk s) (h : s.phase = .encode)
    (sim : EncSim s table W) (more : s.enc.ipos.toNat < s.lat.n)
    (left : (inputBytes s).drop (s.enc.ipos.toNat + 1) = rest) (symbol : s.inp.read s.enc.ipos.toNat = c)
    (absent : lookup s c = none) : EncodesTo s (streamBits
      (txCodes s.lat.m.toNat s.lat.nr (c :: rest) table W s.enc.dsize.toNat s.enc.firstd)) := by
  subst symbol
  have latch := run.latchOk (by simp [h]) (by simp [h])
  have fits := (run.encode_length (.inl h)).2 ▸ s.lat.ilen.isLt
  have isLit := ok.indices _ more
  have fresh := sim.of_absent ok latch absent
  have size := sim.size
  have step := blockStep_of_absent h more absent
  have same := sameRun_missed (s.inp.read s.enc.ipos.toNat) s
  have missed := missed_miss (s.inp.read s.enc.ipos.toNat) s
  have ok' := ok.missed latch fits more absent
  have kept := emits_miss_of_kept (s := s) (s.inp.read s.enc.ipos.toNat)
  have reset := emits_miss_of_reset (s.inp.read s.enc.ipos.toNat) latch
  have ipos : (nextIndex (Machine.miss (s.inp.read s.enc.ipos.toNat) s)).enc.ipos.toNat = s.enc.ipos.toNat + 1 := by
    rw [nextIndex_ipos fits (by rwa [miss_ipos]), miss_ipos]
  have cur : (nextIndex (Machine.miss (s.inp.read s.enc.ipos.toNat) s)).enc.cur.toNat =
      (s.inp.read s.enc.ipos.toNat).toNat := BitVec.toNat_setWidth_of_le (by decide)
  generalize nextIndex (Machine.miss (s.inp.read s.enc.ipos.toNat) s) = t at *
  have spelled := encSpells_of_symbol cur (same.lat.symm ▸ isLit)
  generalize s.inp.read s.enc.ipos.toNat = c at *
  have next {table} (sim' : EncSim t table [c]) := next (run.of_same same) ok' (same.phase.trans h) sim'
    (by rw [indicesLeft, inputBytes_of_same same, ipos, left])
  rw [same.lat] at next
  rw [txCodes, if_neg fresh, sim.txCode_eq ok latch]
  have busy : s.phase ≠ .idle := by simp [h]
  cases missed with
  | inserted room keeps esize dsize firstd pre suf =>
    have noReset : ¬(s.enc.esize.toNat = 4095 ∧ s.lat.nr = false) := by
      rintro ⟨last, mode⟩
      exact absurd (keeps mode) (by omega)
    have rest := next (sim.inserted ok same.lat esize pre suf spelled)
    rw [dsize, firstd] at rest
    rw [if_pos (by omega), if_neg fun ⟨last, mode⟩ => noReset ⟨by omega, mode⟩, streamBits_cons]
    exact rest.of_step busy step same.lat (kept noReset)
  | reset last mode esize dsize firstd =>
    rw [latch.firstFree] at esize dsize
    have rest := next (.start (by rw [esize, same.lat]) spelled)
    rw [dsize, firstd] at rest
    rw [if_pos (by omega), if_pos ⟨by omega, mode⟩, streamBits_cons, streamBits_cons, ← List.append_assoc]
    exact rest.of_step busy step same.lat (reset (by omega) mode)
  | frozen full esize dsize firstd pre suf =>
    have rest := next (sim.frozen same.lat esize pre suf spelled)
    rw [dsize, firstd] at rest
    rw [if_neg (by omega), streamBits_cons]
    exact rest.of_step busy step same.lat (kept (by omega))

theorem encodesRest (rest : List Byte) : EncodesRest rest := by
  induction rest with
  | nil => exact encodesRest_nil
  | cons c rest next =>
    intro s table W run ok h sim left
    have length := (run.encode_length (.inl h)).2
    have more : s.enc.ipos.toNat < s.lat.n := by
      have longer := congrArg List.length left
      rw [indicesLeft, List.length_drop, length_inputBytes, length, List.length_cons] at longer
      omega
    rw [indicesLeft_eq_cons (length ▸ more)] at left
    obtain ⟨rfl, tail⟩ := List.cons.inj left
    cases found : lookup s (s.inp.read s.enc.ipos.toNat) with
    | some k => exact next.hit run ok h sim more tail rfl found
    | none => exact next.miss run ok h sim more tail rfl found

/-! ### The transaction (R314, R318) -/

/-- What a successful ENCODE leaves (R316); of a framed length past 32 bits only the registers that do not hold it
(log 19). -/
structure FramedOut (ilen : Word) (framed : List Byte) (t : State) : Prop where
  phase      : t.phase = .idle
  status     : t.regs.status = statusSuccess
  inConsumed : t.regs.inConsumed = ilen
  out        : framed.length < 2 ^ 32 →
    t.regs.outLen.toNat = framed.length ∧ ∀ a (h : a < framed.length), t.out.read a = framed[a]

/-- R245: what opens phase ENCODE brings the two levels in step. -/
theorem encSim_opened (latch : LatchOk s) (symbol : (s.inp.read 0).toNat < 2 ^ s.lat.m.toNat) :
    EncSim (opened s) [] [s.inp.read 0] := by
  have same := sameRun_opened s
  have size := firstFree_setWidth_toNat latch
  refine .start ?_ (encSpells_of_symbol ?_ (by rwa [same.lat])) <;> rw [opened_enc]
  · rwa [same.lat]
  · exact BitVec.toNat_setWidth_of_le (by decide)

/-- R245, R318: all of phase ENCODE, from the state CHECK has found legal. -/
theorem encodesTo_opened (latch : LatchOk s) (run : RunInv (opened s)) (h : s.phase = .encode) (positive : 0 < s.lat.n)
    (indices : ∀ i, i < s.lat.n → (s.inp.read i).toNat < 2 ^ s.lat.m.toNat) :
    ∃ k t, runBlock k (opened s) = .next t ∧ t.phase = .flush ∧ t.lat = s.lat ∧
      Emits (encoderInit s) t (streamBits (txStream s.lat.m.toNat s.lat.nr (inputBytes s))) := by
  have same := sameRun_opened s
  have phase := same.phase.trans h
  have length := (run.encode_length (.inl phase)).2
  rw [same.lat] at length
  have first : inputBytes s = s.inp.read 0 :: (inputBytes s).drop 1 := by
    have inside : 0 < (inputBytes s).length := by rwa [length_inputBytes, length]
    rw [← inputBytes_getElem inside, ← List.drop_eq_getElem_cons inside]
    rfl
  have left : indicesLeft (opened s) = (inputBytes s).drop 1 := by
    rw [indicesLeft, inputBytes_of_same same, opened_enc]
    rfl
  obtain ⟨k, t, runs, phase, lat, emits⟩ :=
    encodesRest _ run (.opened latch positive indices) phase (encSim_opened latch (indices 0 positive)) left
  rw [same.lat, opened_enc, show BitVec.toNat _ = _ from firstFree_setWidth_toNat latch] at emits
  rw [first, txStream, streamBits_cons]
  exact ⟨k, t, runs, phase, lat.trans same.lat, (emits_opened latch).trans emits⟩

/-- R316: FLUSH and FINISH frame what the packer has taken from its start on. -/
theorem framedOut_flushedAndPublished {bits : List Bool} (emits : Emits (encoderInit u) s bits)
    (lat : s.lat = u.lat) : FramedOut u.lat.ilen (txFrame (bytesOfBits bits)) (flushedAndPublished s) := by
  obtain ⟨phase, status, inConsumed⟩ := flushedAndPublished_results s
  refine ⟨phase, status, inConsumed.trans (by rw [lat]), fun fits => ?_⟩
  exact (emits.packed Nat.one_pos rfl (room_of_frame_fits fits)).flushed fits

/-- R314, R343: the transaction level looks for a bad index as CHECK does. -/
theorem any_inputBytes (length : s.lat.ilen.toNat = pixelCount s.lat) :
    (inputBytes s).any (fun b => decide (2 ^ s.lat.m.toNat ≤ b.toNat)) = indexBad s := by
  rw [inputBytes, length, List.any_map]
  rfl

/-- R314: phase ENCODE, FLUSH and FINISH follow a passed CHECK. -/
theorem runsTo_of_checkEncode_passed (run : RunInv s) (check : s.phase = .check) (op : s.lat.op = .encode)
    (mcs : mcsLegal s.lat.m.toNat = true) (dims : dimsBad s.lat = false) (legal : indexBad s = false)
    (passes : checkEncode s = .next (checked .encode s)) : RunsTo (FramedOut s.lat.ilen) s
      (.ok (txFrame (bytesOfBits (streamBits (txStream s.lat.m.toNat s.lat.nr (inputBytes s)))))) := by
  have step := blockStep_of_checkEncode_passed check op passes
  have busy : s.phase ≠ .idle := by simp [check]
  obtain ⟨wid, hgt⟩ := dimsBad_eq_false_iff.mp dims
  obtain ⟨small, clear, ended, firstFree⟩ := latchOk_of_latched (mcsLegal_iff.mp mcs).2 (run.latched busy)
  obtain ⟨k, t, runs, phase, lat, emits⟩ := encodesTo_opened (s := checked .encode s)
    ⟨small, clear, ended, firstFree⟩ (run.blockMove (blockMove_of_blockStep step)) rfl (pixelCount_pos wid hgt)
    (indexBad_eq_false_iff.mp legal)
  refine .of_run (runBlock_of_step busy step 0) (.of_run runs ?_)
  refine ⟨2, _, runBlock_flush phase (by rw [lat]; exact op), ?_⟩
  exact framedOut_flushedAndPublished (u := checked .encode s) emits lat

/-- R18: from phase CHECK the block comes to what the transaction level's ENCODE answers. -/
theorem runsTo_txEncode (run : RunInv s) (check : s.phase = .check) (op : s.lat.op = .encode) :
    RunsTo (FramedOut s.lat.ilen) s (txEncode s.params s.lat (inputBytes s)) := by
  have busy : s.phase ≠ .idle := by simp [check]
  have aborts {x : Cause} (step : checkEncode s = .next (abortState x s)) :=
    RunsTo.of_abort (good := FramedOut s.lat.ilen) busy (blockStep_of_checkEncode_abort check op step)
  rw [txEncode, length_inputBytes, ← pixelCount]
  by_cases mcs : mcsLegal s.lat.m.toNat = false
  · rw [if_pos mcs]
    exact aborts (if_pos mcs)
  rw [if_neg mcs]
  rw [Bool.not_eq_false] at mcs
  cases dims : dimsBad s.lat with
  | true =>
    rw [if_pos (dimsBad_iff.mp dims)]
    exact aborts (checkEncode_of_dims mcs dims)
  | false =>
    have steps := checkEncode_eq mcs dims
    rw [if_neg (dimsBad_iff.not.mp (ne_true_of_eq_false dims))]
    by_cases length : s.lat.ilen.toNat = pixelCount s.lat
    · rw [if_neg (not_not.mpr length)] at steps
      have capacity : overCapacity s.params s.lat.ilen.toNat s.lat.ilen.toNat (framedBound s.lat.ilen.toNat) =
          beyondCapacity s (framedBound (pixelCount s.lat)) := by rw [beyondCapacity, length]
      rw [if_neg (not_not.mpr length), any_inputBytes length, capacity]
      cases within : beyondCapacity s (framedBound (pixelCount s.lat)) with
      | true =>
        rw [if_pos within] at steps
        rw [if_pos rfl]
        refine .of_refused busy ?_
        rw [blockStep_of_checkEncode check op, steps]
        rfl
      | false =>
        rw [if_neg (ne_true_of_eq_false within)] at steps
        rw [if_neg Bool.false_ne_true]
        cases legal : indexBad s with
        | true =>
          rw [if_pos legal] at steps
          rw [if_pos rfl]
          exact aborts steps
        | false =>
          rw [if_neg (ne_true_of_eq_false legal)] at steps
          rw [if_neg Bool.false_ne_true]
          exact runsTo_of_checkEncode_passed run check op mcs dims legal steps
    · rw [if_pos length] at steps
      rw [if_pos length]
      exact aborts steps

/-- Settles O58. -/
theorem encodeRefinesTransaction : Obligations.EncodeRefinesTransaction := by
  intro s run check op
  obtain ⟨k, succeeds, aborts, refused⟩ := (runsTo_txEncode run check op).exists_steps
  refine ⟨k, fun framed answer => ?_, fun x answer => ?_, refused⟩
  · obtain ⟨t, runs, phase, status, inConsumed, out⟩ := succeeds _ answer
    exact ⟨t, runs, phase, status, inConsumed, out⟩
  · obtain ⟨t, runs, phase, status, outLen, inConsumed⟩ := aborts x answer
    exact ⟨t, runs, phase, status, outLen, inConsumed⟩

end Sys2Proof.Machine

/-! DIAG is write-only (R38): what the sink has received is carried along by every operation and read by none. -/

namespace Sys2Proof.Machine

variable {s t : State}

/-! ### What it is to ignore DIAG -/

/-- `f` does to a state what it does to it with other contents of DIAG, and leaves those alone. -/
def KeepsDiag (f : State → State) : Prop := ∀ d s, f (s.setDiag d) = (f s).setDiag d

/-- An outcome with the contents of DIAG replaced in its next state. -/
def withDiag (d : Diag) : Host.Outcome State Fault Refusal → Host.Outcome State Fault Refusal
  | .next t => .next (t.setDiag d)
  | .fault r => .fault r
  | .refused r => .refused r

/-- The same of an operation that may stop. -/
def IgnoresDiag (f : State → Host.Outcome State Fault Refusal) : Prop := ∀ d s, f (s.setDiag d) = withDiag d (f s)

section
variable {f g : State → State} {c : State → Prop} [DecidablePred c]

theorem KeepsDiag.comp (hg : KeepsDiag g) (hf : KeepsDiag f) : KeepsDiag fun s => g (f s) := fun d s =>
  (congrArg g (hf d s)).trans (hg d (f s))

theorem KeepsDiag.ite (hc : ∀ d s, c (s.setDiag d) ↔ c s) (hf : KeepsDiag f) (hg : KeepsDiag g) :
    KeepsDiag fun s => if c s then f s else g s := fun d s => by
  by_cases h : c s
  · simp only [h, (hc d s).mpr h, if_true, hf d s]
  · simp only [h, (hc d s).not.mpr h, if_false, hg d s]

theorem KeepsDiag.ignores (hf : KeepsDiag f) : IgnoresDiag fun s => .next (f s) := fun d s =>
  congrArg Host.Outcome.next (hf d s)

end

section
variable {f g : State → Host.Outcome State Fault Refusal} {c : State → Prop} [DecidablePred c]

theorem ignoresDiag_fault (r : Fault) : IgnoresDiag fun _ => .fault r := fun _ _ => rfl

theorem ignoresDiag_refused (r : Refusal) : IgnoresDiag fun _ => .refused r := fun _ _ => rfl

theorem IgnoresDiag.ite (hc : ∀ d s, c (s.setDiag d) ↔ c s) (hf : IgnoresDiag f) (hg : IgnoresDiag g) :
    IgnoresDiag fun s => if c s then f s else g s := fun d s => by
  by_cases h : c s
  · simp only [h, (hc d s).mpr h, if_true, hf d s]
  · simp only [h, (hc d s).not.mpr h, if_false, hg d s]

theorem IgnoresDiag.andThen (hf : IgnoresDiag f) (hg : IgnoresDiag g) :
    IgnoresDiag fun s => andThen (f s) g := fun d s => by
  show Machine.andThen (f (s.setDiag d)) g = withDiag d (Machine.andThen (f s) g)
  rw [hf d s]
  cases f s with
  | next t => exact hg d t
  | fault | refused => rfl

/-- What ignores DIAG leaves it as it was. -/
theorem IgnoresDiag.diag_eq (hf : IgnoresDiag f) (runs : f s = .next t) : t.diag = s.diag := by
  have same : f s = withDiag s.diag (f s) := hf s.diag s
  rw [runs] at same
  have same : t = t.setDiag s.diag := Host.Outcome.next.inj same
  rw [same, State.setDiag_diag]

end

/-! ### The packer and the encoder -/

theorem keepsDiag_writeBit (bit : Nat) : KeepsDiag (writeBit bit) :=
  .ite (fun _ _ => .rfl) (fun _ _ => rfl) fun _ _ => rfl

theorem keepsDiag_writeBits (code i n : Nat) : KeepsDiag (writeBits code i n) := by
  induction n generalizing i with
  | zero => exact fun _ _ => rfl
  | succ n ih => exact (ih (i + 1)).comp (keepsDiag_writeBit _)

theorem keepsDiag_emitCode (c : Code) : KeepsDiag (emitCode c) := fun d s =>
  keepsDiag_writeBits c.toNat 0 s.encWidth d s

theorem keepsDiag_sendData (c : Code) : KeepsDiag (sendData c) :=
  KeepsDiag.comp (g := dataSent) (fun _ _ => rfl) (keepsDiag_emitCode c)

theorem keepsDiag_clearFull : KeepsDiag clearFull := fun d s => by
  rw [clearFull, clearFull, State.setDiag_lat, keepsDiag_emitCode]
  rfl

theorem keepsDiag_insertE (p : Code) (c : Byte) : KeepsDiag (insertE p c) :=
  .ite (fun _ _ => .rfl)
    (.ite (fun _ _ => .rfl) (keepsDiag_clearFull.comp (f := storeEntry p c) fun _ _ => rfl) fun _ _ => rfl)
    fun _ _ => rfl

theorem keepsDiag_miss (c : Byte) : KeepsDiag (miss c) := fun d s => by
  rw [miss, miss, State.setDiag_enc, keepsDiag_sendData, keepsDiag_insertE]
  rfl

theorem keepsDiag_finalMatch : KeepsDiag finalMatch := fun d s => keepsDiag_sendData s.enc.cur d s

theorem ignoresDiag_encStep : IgnoresDiag (exec .encStep) := fun d s => by
  obtain left | ended := Nat.lt_or_ge s.enc.ipos.toNat s.lat.n
  · cases found : lookup s (s.inp.read s.enc.ipos.toNat) with
    | some k =>
      rw [exec_encStep_of_hit left found, exec_encStep_of_hit (s := s.setDiag d) left found]
      rfl
    | none =>
      rw [exec_encStep_of_miss left found, exec_encStep_of_miss (s := s.setDiag d) left found, keepsDiag_miss]
      rfl
  · rw [exec_encStep_of_ended ended, exec_encStep_of_ended (s := s.setDiag d) ended, keepsDiag_finalMatch]
    rfl

theorem keepsDiag_flushPartial : KeepsDiag flushPartial := .ite (fun _ _ => .rfl) (fun _ _ => rfl) fun _ _ => rfl

theorem keepsDiag_flushOut : KeepsDiag flushOut := fun d s => by
  rw [flushOut, flushOut, keepsDiag_flushPartial]
  rfl

/-! ### The deframer and the decoder -/

/-- R150: DEFRAME's loop reads the cursor and IN. -/
theorem deframeLoop_setDiag (n : Nat) (d : Diag) (s : State) :
    deframeLoop n (s.setDiag d) = (deframeLoop n s).map (·.setDiag d) := by
  induction n generalizing s with
  | zero => rfl
  | succ n ih =>
    rw [deframeLoop, deframeLoop, show bytesLeft (s.setDiag d) = bytesLeft s from rfl]
    cases decodeFrame (bytesLeft s) with
    | error x => cases x <;> rfl
    | ok i => cases i with
      | subblock payload => exact ih (takeSubblock payload s)
      | _ => rfl

theorem deframe_setDiag (d : Diag) (s : State) : deframe (s.setDiag d) = (deframe s).map (·.setDiag d) := by
  have loop : deframeLoop (s.lat.ilen.toNat + 1)
      ((s.setDiag d).setUnp { (s.setDiag d).unp with fpos := 0, plen := 0 }) = _ :=
    deframeLoop_setDiag _ d (s.setUnp { s.unp with fpos := 0, plen := 0 })
  rw [deframe, deframe, State.setDiag_lat, loop]
  cases deframeLoop (s.lat.ilen.toNat + 1) (s.setUnp { s.unp with fpos := 0, plen := 0 }) <;> rfl

theorem ignoresDiag_deframe : IgnoresDiag (exec .deframe) := fun d s => by
  have deframed := deframe_setDiag d s
  cases h : deframe s with
  | ok t =>
    rw [h] at deframed
    rw [exec_deframe_of_ok h, exec_deframe_of_ok deframed]
    rfl
  | error x =>
    rw [h] at deframed
    rw [exec_deframe_of_error h, exec_deframe_of_error deframed]
    rfl

theorem chain_setDiag (n k : Nat) (d : Diag) (s : State) : chain (s.setDiag d) n k = chain s n k := by
  induction n generalizing k with
  | zero => rfl
  | succ n ih => rw [chain, chain, State.setDiag_lat, State.setDiag_prefixMem, State.setDiag_suffixMem, ih]

theorem keepsDiag_outputSym (b : Byte) : KeepsDiag (outputSym · b) := fun d s => by
  by_cases below : s.dec.ocount < s.lat.n <;> simp only [outputSym, State.setDiag_dec, State.setDiag_lat, below] <;> rfl

theorem keepsDiag_outputSyms (syms : List Byte) : KeepsDiag (outputSyms syms) := by
  induction syms with
  | nil => exact fun _ _ => rfl
  | cons b syms ih => exact ih.comp (keepsDiag_outputSym b)

theorem keepsDiag_insertEntry (c : Code) (b : Byte) : KeepsDiag (insertEntry c b) := fun d s => by
  by_cases grows : s.dec.prevValid = true ∧ s.dec.d.toNat < Config.dictCap <;>
    simp only [insertEntry, State.setDiag_dec, grows] <;> rfl

theorem keepsDiag_emitSeq (c : Code) (q : Seq) : KeepsDiag (emitSeq c q) :=
  (keepsDiag_insertEntry c q.first).comp (keepsDiag_outputSyms q.syms)

theorem resolve_setDiag (k : Code) (d : Diag) (s : State) :
    resolve k (s.setDiag d) = (resolve k s).map fun r => (r.1, r.2.setDiag d) := by
  rw [resolve, resolve, chain_setDiag]
  cases chain s Config.dictCap k.toNat <;> rfl

/-- R184, R185: the sequence resolved is the same, and so is what is done with it. -/
theorem ignoresDiag_execClass (k : CodeClass) : IgnoresDiag (execClass k) := fun d s => by
  cases k with
  | clear | endCode | badcode => rfl
  | lit b => exact (keepsDiag_emitSeq _ ⟨b, []⟩).ignores d s
  | dict c =>
    show execDict c (s.setDiag d) = withDiag d (execDict c s)
    rw [execDict, execDict, resolve_setDiag]
    cases resolve c s with
    | none => rfl
    | some r => exact (keepsDiag_emitSeq c r.1).ignores d r.2
  | defer =>
    show execDefer (s.setDiag d) = withDiag d (execDefer s)
    rw [execDefer, execDefer, State.setDiag_dec, resolve_setDiag]
    cases resolve s.dec.prev s with
    | none => rfl
    | some r => exact (keepsDiag_emitSeq _ r.1.deferred).ignores d r.2

theorem ignoresDiag_decstep : IgnoresDiag (exec .decstep) := fun d s => by
  obtain short | enough := Nat.lt_or_ge (8 * s.unp.plen.toNat) (s.unp.bitpos.toNat + s.decWidth)
  · rw [exec_decstep_of_short short, exec_decstep_of_short (s := s.setDiag d) short]
    rfl
  · rw [exec_decstep_of_enough enough, exec_decstep_of_enough (s := s.setDiag d) enough]
    exact ignoresDiag_execClass _ d (advanced s s.decWidth)

/-! ### The block -/

theorem ignoresDiag_checkDecode : IgnoresDiag checkDecode :=
  .ite (fun _ _ => .rfl) (fun _ _ => rfl) <| .ite (fun _ _ => .rfl) (fun _ _ => rfl) <|
    .ite (fun _ _ => .rfl) (ignoresDiag_refused _) fun _ _ => rfl

theorem ignoresDiag_checkEncode : IgnoresDiag checkEncode :=
  .ite (fun _ _ => .rfl) (fun _ _ => rfl) <| .ite (fun _ _ => .rfl) (fun _ _ => rfl) <|
    .ite (fun _ _ => .rfl) (fun _ _ => rfl) <| .ite (fun _ _ => .rfl) (ignoresDiag_refused _) <|
    .ite (fun _ _ => .rfl) (fun _ _ => rfl) fun _ _ => rfl

theorem keepsDiag_opened : KeepsDiag opened := fun d s => by
  rw [opened, opened, State.setDiag_lat, show encoderInit (s.setDiag d) = (encoderInit s).setDiag d from rfl,
    keepsDiag_emitCode]
  rfl

theorem ignoresDiag_openEncode : IgnoresDiag openEncode := keepsDiag_opened.ignores

theorem ignoresDiag_checkPhase : IgnoresDiag checkPhase := fun d s => by
  cases op : s.lat.op with
  | decode =>
    rw [checkPhase, checkPhase, State.setDiag_lat, op]
    exact ignoresDiag_checkDecode d s
  | encode =>
    rw [checkPhase, checkPhase, State.setDiag_lat, op]
    exact (ignoresDiag_checkEncode.andThen (.ite (fun _ _ => .rfl) ignoresDiag_openEncode fun _ _ => rfl)) d s

theorem ignoresDiag_deframePhase : IgnoresDiag deframePhase :=
  ignoresDiag_deframe.andThen (.ite (fun _ _ => .rfl) (fun _ _ => rfl) fun _ _ => rfl)

theorem ignoresDiag_lzwdecPhase : IgnoresDiag lzwdecPhase :=
  .ite (fun _ _ => .rfl) (fun _ _ => rfl) ignoresDiag_decstep

theorem ignoresDiag_eEnd : IgnoresDiag (exec .eEnd) := fun d s =>
  congrArg Host.Outcome.next (keepsDiag_emitCode (s.lat.endCode.setWidth 12) d s)

theorem ignoresDiag_encodePhase : IgnoresDiag encodePhase :=
  .ite (fun _ _ => .rfl) ignoresDiag_encStep
    (ignoresDiag_encStep.andThen
      (ignoresDiag_eEnd.andThen (g := fun t => .next (t.setPhase .flush)) fun _ _ => rfl))

theorem ignoresDiag_flushPhase : IgnoresDiag flushPhase :=
  IgnoresDiag.andThen (f := exec .flush) (g := fun t => .next (t.setPhase .finish)) keepsDiag_flushOut.ignores
    fun _ _ => rfl

theorem ignoresDiag_finishDecode : IgnoresDiag execFinishDecode :=
  .ite (fun _ _ => .rfl) (fun _ _ => rfl) fun _ _ => rfl

theorem ignoresDiag_finishPhase : IgnoresDiag finishPhase := fun d s => by
  cases op : s.lat.op with
  | decode =>
    rw [finishPhase, finishPhase, State.setDiag_lat, op]
    exact ignoresDiag_finishDecode d s
  | encode =>
    rw [finishPhase, finishPhase, State.setDiag_lat, op]
    rfl

/-- R38: the block's step reads nothing of DIAG. -/
theorem ignoresDiag_blockStep : IgnoresDiag blockStep := fun d s => by
  rw [blockStep, blockStep, State.setDiag_phase]
  cases s.phase with
  | idle => rfl
  | check => exact ignoresDiag_checkPhase d s
  | deframe => exact ignoresDiag_deframePhase d s
  | lzwdec => exact ignoresDiag_lzwdecPhase d s
  | encode => exact ignoresDiag_encodePhase d s
  | flush => exact ignoresDiag_flushPhase d s
  | finish => exact ignoresDiag_finishPhase d s

/-! ### The host -/

theorem ignoresDiag_start (op : Op) : IgnoresDiag (start op) :=
  .ite (fun _ _ => .rfl) (ignoresDiag_refused _) <| .ite (fun _ _ => .rfl) (fun _ _ => rfl) (ignoresDiag_refused _)

theorem ignoresDiag_command (v : Byte) : IgnoresDiag (exec (decodeCmd v)) := by
  by_cases starts : v = 0x81#8 ∨ v = 0x82#8
  · obtain ⟨op, runs⟩ := exec_decodeCmd_start starts
    rw [funext runs]
    exact ignoresDiag_start op
  · obtain ⟨notDecode, notEncode⟩ := not_or.mp starts
    obtain noStart | start := Nat.lt_or_ge v.toNat 128
    · rw [decodeCmd_of_startBit_clear noStart]
      exact fun _ _ => rfl
    · rw [decodeCmd_of_reserved start notDecode notEncode]
      exact IgnoresDiag.ite (fun _ _ => .rfl) (ignoresDiag_refused _) (ignoresDiag_refused _)

theorem ignoresDiag_hostWriteIn (a : Nat) (b : Byte) : IgnoresDiag (hostWriteIn a b) :=
  .ite (fun _ _ => .rfl) (ignoresDiag_refused _) <| .ite (fun _ _ => .rfl) (ignoresDiag_fault _) fun _ _ => rfl

theorem ignoresDiag_hostReadOut (a : Nat) : IgnoresDiag (hostReadOut a) :=
  .ite (fun _ _ => .rfl) (ignoresDiag_refused _) <| .ite (fun _ _ => .rfl) (ignoresDiag_fault _) <|
    .ite (fun _ _ => .rfl) (fun _ _ => rfl) fun _ _ => rfl

theorem readWritable_setDiag (written : Bool) (w : Nat) (v : Word) (d : Diag) (s : State) :
    readWritable written w v (s.setDiag d) = (readWritable written w v s).setDiag d := by
  cases written <;> rfl

/-- R38: no access of the host reads DIAG; a turn it leaves to the block writes it. -/
theorem ignoresDiag_hostAccess {x : HostAccess} (notIdle : x ≠ .idle) : IgnoresDiag (hostAccess x) := by
  cases x with
  | writeCmd v => exact ignoresDiag_command v
  | writeIn a b => exact ignoresDiag_hostWriteIn a b
  | readOut a => exact ignoresDiag_hostReadOut a
  | readCfg | readWidth | readHeight | readInLen =>
    exact fun d s => congrArg Host.Outcome.next (readWritable_setDiag _ _ _ d s)
  | idle => exact absurd rfl notIdle
  | _ => exact fun _ _ => rfl

/-! ### The step -/

/-- What a step does to DIAG: its contents change the step's outcome nowhere else, and are only added to. -/
structure DiagOnlyGrows (s : State) (d : Diag) : Prop where
  same : ∃ d', step (s.setDiag d) = withDiag d' (step s)
  grow : ∀ t, step s = .next t → ∃ l, t.diag.records = s.diag.records ++ l

/-- A host access leaves DIAG alone. -/
theorem DiagOnlyGrows.of_access {f : State → Host.Outcome State Fault Refusal} (ignores : IgnoresDiag f) (d : Diag)
    {u : State} (diag : u.diag = s.diag) (runs : step s = f u) (runs' : step (s.setDiag d) = f (u.setDiag d)) :
    DiagOnlyGrows s d :=
  ⟨⟨d, by rw [runs, runs', ignores d u]⟩, fun t h => ⟨[], by
    rw [ignores.diag_eq (runs.symm.trans h), diag, List.append_nil]⟩⟩

theorem writeDiag_setDiag (d : Diag) (s : State) :
    writeDiag (s.setDiag d) = (writeDiag s).setDiag (writeDiag (s.setDiag d)).diag := by
  rw [writeDiag_frame (s.setDiag d), writeDiag_frame s]
  rfl

/-- A turn of the block adds its records (log 15) and then leaves DIAG alone. -/
theorem DiagOnlyGrows.of_turn (d : Diag) {u : State} (diag : u.diag = s.diag) (runs : step s = blockTurn u)
    (runs' : step (s.setDiag d) = blockTurn (u.setDiag d)) : DiagOnlyGrows s d := by
  rw [blockTurn] at runs runs'
  refine ⟨⟨(writeDiag (u.setDiag d)).diag, ?_⟩, fun t h => ?_⟩
  · rw [runs, runs', writeDiag_setDiag d u, ignoresDiag_blockStep]
    rfl
  · rw [ignoresDiag_blockStep.diag_eq (runs.symm.trans h), ← diag]
    exact writeDiag_records u

theorem diagOnlyGrows (s : State) (d : Diag) : DiagOnlyGrows s d := by
  cases queue : s.host with
  | nil =>
    exact .of_turn d rfl (by rw [step, machineStep, queue]) (by rw [step, machineStep, State.setDiag_host, queue])
  | cons x rest =>
    have runs : step s = hostAccess x (s.setHost rest) := step_of_host queue
    have runs' : step (s.setDiag d) = hostAccess x ((s.setHost rest).setDiag d) := step_of_host queue
    by_cases turn : x = .idle
    · subst turn
      exact .of_turn d (u := s.setHost rest) rfl runs runs'
    · exact .of_access (ignoresDiag_hostAccess turn) d (u := s.setHost rest) rfl runs runs'

/-- Settles O60. -/
theorem diagChangesNothing : Obligations.DiagChangesNothing := by
  intro s d
  obtain ⟨⟨d', same⟩, grow⟩ := diagOnlyGrows s d
  refine ⟨fun t h => ⟨grow t h, d', ?_⟩, fun r h => ?_, fun r h => ?_⟩ <;> rw [same, h] <;> rfl

end Sys2Proof.Machine
